-- ==== Sys2Proof/Word.lean ====
section
/-!
DEFINITION. The word types of the CV2560 and their plainest arithmetic: the 32-bit register word of R9, the 64-bit
Ledger entry of R282, the 96-bit Q64.32 position of R61, and a sparse memory as a list of cells in one canonical form.
-/
namespace Sys2Proof

/-- One byte of DRAM. -/
abbrev Byte := BitVec 8

/-- A 32-bit register, Charter or page word (R9, R52). -/
abbrev Word := BitVec 32

/-- A 64-bit quantity: a `_LO`/`_HI` pair (R11), a Ledger entry (R282) or a lane code word (R133). -/
abbrev Word64 := BitVec 64

/-- A position in Q64.32: a 64-bit integer count with a 32-bit fraction (R61). -/
abbrev Pos := BitVec 96

/-- A sparse memory: cells at strictly rising keys, none equal to zero, which is what an unlisted key reads as. -/
abbrev Mem (w : Nat) := List (Nat × BitVec w)

end Sys2Proof
end

