-- ==== Sys2Proof/Syntax.lean ====
section
/-!
DEFINITION. The commands of the CV2560: one constructor of `Instr` per row of spec/opcode_table.json. A command is
what reaches the block from outside its own state: a register access with the requester that makes it, a frame or a
message received on a line, an edge on a pin, a lane instruction with its encoded fields, or an instant of the device
at which the spec says something comes about. Each carries as operands only what the device does not already hold.
-/
namespace Sys2Proof

/-- The source of an access, in the order of the SRC codes of GLB_ACCESS_SRC (20_register_map, R453). -/
inductive Source where
  | app0 | app1 | app2 | app3 | svc | host | linkEngine
  deriving DecidableEq, Repr

/-- The width of an access, in the order of GLB_ACCESS_SRC.SIZE (R9, R288). -/
inductive Width where
  | w8 | w16 | w32 | w64
  deriving DecidableEq, Repr

/-- A serial receiver: a Tabna port or a mirror lane (R305, R366). -/
inductive Receiver where
  | port (p : Nat)
  | mirror (lane : Nat)
  deriving DecidableEq, Repr

/-- Format P of R133: the fields of the word as encoded, reserved bits included.  -/
structure PFields where
  /-- ACC [55:54]. -/
  acc : Nat
  /-- XS [53:51]. -/
  xs : Nat
  /-- YS [50:47]. -/
  ys : Nat
  /-- SH [46:41], the raw six bits. -/
  sh : Nat
  /-- SAT [40]. -/
  sat : Bool
  /-- MX move field, 20 bits. -/
  mx : BitVec 20
  /-- MY move field, 20 bits. -/
  my : BitVec 20
  deriving DecidableEq, Repr

/-- Format I of R133. -/
structure IFields where
  /-- DST register code [55:49]. -/
  dst : Nat
  /-- SRC register code [48:42]. -/
  src : Nat
  /-- RR [41]: the second operand is a register. -/
  rr : Bool
  /-- Reserved bits [40:32]. -/
  rsvd : BitVec 9
  /-- IMM32 [31:0]. -/
  imm : Word
  deriving DecidableEq, Repr

/-- Format C of R133. -/
structure CFields where
  /-- REG register code [55:49]. -/
  reg : Nat
  /-- COND [48:45]. -/
  cond : Nat
  /-- IMM16 [44:29]. -/
  imm16 : Nat
  /-- Reserved bits [28:15]. -/
  rsvd : BitVec 14
  /-- TARGET [14:0]. -/
  target : Nat
  deriving DecidableEq, Repr

/-- An acyclic message as received (R319): its header word, its payload and its CRC. -/
structure Msg where
  /-- STATION [9:0], the sender upstream or the position in a discovery cell (R331); KIND [23:16]; NWORDS [31:24]. -/
  hdr : Word
  /-- Payload words. -/
  payload : List Word
  /-- The CRC received (R306). -/
  crcRx : BitVec 16
  deriving DecidableEq, Repr

/-- A return slot as received at the pin (R314 to R316). -/
structure RetSlot where
  /-- A fill or abort character stands in it, or the frame does not reach it (R316 step 1). -/
  fill : Bool
  /-- The CRC received (R316 step 2), the DETAIL of a BAD_CRC record (R348). -/
  crcRx : BitVec 16
  /-- Characters that its station wrote into a cell or slot not its own (R346). -/
  babble : Bool
  /-- Instant of its last symbol at the pin, ns of the timescale of R37. -/
  lastNs : Nat
  /-- The four header words of R314. -/
  hdr : List Word
  /-- The words after the header: axis records, the I/O record, load records (R315). -/
  body : List Word
  /-- Messages in the slot's upstream window (R319). -/
  msgs : List Msg
  deriving DecidableEq, Repr

/-- What is received upstream on a port: a return frame (R313), or a SOF where none is due. -/
structure RetFrame where
  /-- False for a SOF received when no return frame or discovery reply is due: unattributed babble (R346). -/
  due : Bool
  /-- Arrival of the SOF at the pin, in UI of 200 ps. -/
  rarrUi : Nat
  /-- The two header words: TYPE 0x02 in [7:0] and NSLOT in [20:16], then the sample cycle. -/
  hdr : List Word
  /-- The header CRC received. -/
  hdrCrc : BitVec 16
  /-- Invalid code groups met since the frame before this one (R304). -/
  symErrs : Nat
  /-- The slots, in frame order. -/
  slots : List RetSlot
  /-- Characters from SOF to EOF. -/
  len : Nat
  deriving DecidableEq, Repr

/-- An upstream cell of a discovery reply (R330). -/
structure Cell where
  /-- Still fill: no station stands at the position. -/
  fill : Bool
  /-- Bytes 0 to 15, the status words: [0] PRESENT, [1] LOCKED, [2] ASSIGNED and [25:16] the station number; CUT_UI; ARR_UI;
  DEP_UI. -/
  status : List Word
  /-- The CRC of bytes 0 to 15 as received. -/
  crcRx : BitVec 16
  /-- Characters that its position wrote into a cell or slot not its own (R346). -/
  babble : Bool
  /-- The message of bytes 20 to 47, if one stands there. -/
  msg : Option Msg
  deriving DecidableEq, Repr

/-- A discovery reply as received (R330). -/
structure DiscReply where
  /-- The four header words: TYPE 0x04 in [7:0] and N, the position of the turning station, in [12:8]; SEQ echoed; two
  reserved. -/
  hdr : List Word
  /-- The header CRC received. -/
  hdrCrc : BitVec 16
  /-- Invalid code groups met since the frame before this one (R304). -/
  symErrs : Nat
  /-- Arrival of the SOF at the pin, in UI. -/
  rarrUi : Nat
  /-- The sixteen cells. -/
  cells : List Cell
  deriving DecidableEq, Repr

/-- The header of an issue frame received by a unit (R310, R376). -/
structure IssueHdr where
  /-- The header words of R310, RLEN and GRANT among them. -/
  hdr : List Word
  /-- The header CRC received. -/
  crcRx : BitVec 16
  /-- Invalid code groups met since the frame before this one (R304). -/
  symErrs : Nat
  /-- Arrival of the SOF, UI. -/
  arrUi : Nat
  deriving DecidableEq, Repr

/-- The instants that a heartbeat leaves at its two ends, in units of 10 ps (R367): the one in pair time at the holder, the other in
the device time of the standby. -/
structure HbStamps where
  /-- Departure of its SOF from the unit that sends it. -/
  dep : Nat
  /-- Arrival of that SOF at the other. -/
  arr : Nat
  deriving DecidableEq, Repr

/-- One entry of an Escrow DELAY list (R380). -/
structure DelayRec where
  task : Nat
  flag : Nat
  due : Nat
  period : Nat
  deriving DecidableEq, Repr

/-- The register of a compare unit that is written (R251). -/
inductive CmpReg where
  | cfg | val | valHi | step
  deriving DecidableEq, Repr

/-- Whose OVERRATE is cleared: a local port's, or the selected station channel's (R234, R238). -/
inductive OverrateOf where
  | port (n : Nat)
  | axis
  deriving DecidableEq, Repr

/-- How a read of a Ledger entry finds its SECDED protection (R293). -/
inductive Ecc where
  | clean | corrected | uncorrectable
  deriving DecidableEq, Repr

/-- What one test segment has kept at its end (R403). -/
structure SegResult where
  /-- The completion flag, set by the segment's own end condition. -/
  done : Bool
  /-- The pattern counter. -/
  count : Word
  /-- The signature. -/
  sig : Word64
  deriving DecidableEq, Repr

/-- The measurements of the analogue checks and of wave 5 (R400, R444), with the state of the key RAM read-back (R401). -/
structure WaveMeas where
  /-- Reference readings of the two monitors, as deviations from nominal in units of 0.01 %. -/
  refs : List (Int × Int)
  /-- AIN reference codes less their nominal codes. -/
  ainDev : List Int
  /-- Root PLL locked, and its period jitter in fs rms. -/
  pllLocked : Bool
  pllJitterFs : Nat
  /-- The eight temperature sensors, 0.1 °C. -/
  temps : List Int
  /-- Loop-back of TB0 to TB31: bit errors, and eye height in 4 mV units. -/
  ser : List (Nat × Nat)
  /-- Loop-back of MIR0 and MIR1: bit errors. -/
  mir : List Nat
  /-- Fitted DRAM of each interface, MiB, and whether training completed. -/
  dram0 : Nat
  dram1 : Nat
  trained : Bool
  /-- The key RAM read-back found only zeros (R401). -/
  keyRamZero : Bool
  /-- Duration of the wave, ms. -/
  ms : Nat
  deriving DecidableEq, Repr

/-- A reading of every ageing monitor (R416), with what the planner measures as it raises VCORE step by step (R417). -/
structure MonReading where
  /-- Slack of the 21 replicas, ps. -/
  slack : List Int
  /-- Degradation of the 48 ring-oscillator pairs, ppm. -/
  ro : List Nat
  /-- Eye height and width of TB0 to TB31. -/
  eyes : List (Nat × Nat)
  /-- Eye height and width of MIR0 and MIR1. -/
  mirEyes : List (Nat × Nat)
  /-- The least slack measured after each further 10 mV of step 1. -/
  after : List Int
  deriving DecidableEq, Repr

/-- What the core regulator answers over PMBus, 1 ms after a VOUT_COMMAND, beside READ_VOUT (R422, R423). -/
structure PmbReply where
  /-- READ_IOUT, 0.1 A. -/
  iout : Nat
  /-- STATUS_WORD. -/
  status : BitVec 16
  /-- It was not acknowledged. -/
  nack : Bool
  /-- Its packet error code fails. -/
  pecErr : Bool
  deriving DecidableEq, Repr

/-- Causes of a device reset that reach it as a command (R398). -/
inductive ResetCause where
  | powerUp | resetN
  deriving DecidableEq, Repr

/-- JTAG instructions (R402). -/
inductive JtagInstr where
  | idcode | bypass
  | scan       -- reaches an internal scan chain
  | boundary   -- boundary scan, which reaches the chain of the boundary cells
  deriving DecidableEq, Repr

/-- A command. Constructors stand in the order of spec/opcode_table.json; each names the rule of its row. -/
inductive Instr where
  /-- R12. -/
  | registerWrite (src : Source) (width : Width) (addr : Nat) (value : Word64)
  /-- R11. -/
  | pairLoRead (src : Source) (addr : Nat)
  /-- R30. -/
  | refLost
  /-- R30. -/
  | holdoverLimit
  /-- R30. -/
  | refBack
  /-- R31. -/
  | pllLockLoss
  /-- R32. -/
  | clkDerateWrite (src : Source) (value : Word)
  /-- R34. -/
  | derateIdleChange
  /-- R275. -/
  | tick1us
  /-- R51. -/
  | plantStepWrite (src : Source) (value : Word)
  /-- R45. -/
  | calendarSet (src : Source) (hi : Word)
  /-- R45. -/
  | calendarSetApply
  /-- R44. -/
  | calendarSecond
  /-- R47. -/
  | capture (src : Source)
  /-- R47. -/
  | captureDone
  /-- R44. -/
  | vbakLost
  /-- R433. -/
  | brownOut
  /-- R74. -/
  | load (src : Source)
  /-- R75. -/
  | loadComplete
  /-- R74. -/
  | discard (src : Source)
  /-- R409. -/
  | start (src : Source)
  /-- R81. -/
  | arm (src : Source)
  /-- R83. -/
  | disarm (src : Source)
  /-- R89. -/
  | localSample (gpio : Word)
  /-- R90. -/
  | localSampleEvent
  /-- R91. -/
  | returnDue (port : Nat)
  /-- R101. -/
  | deadline
  /-- R89. -/
  | clearingPoint
  /-- R310. -/
  | issueLaunch (port : Nat)
  /-- R316. -/
  | returnFrame (port : Nat) (frame : RetFrame)
  /-- R305. -/
  | linkAlign (rx : Receiver)
  /-- R305. -/
  | linkLoss (rx : Receiver)
  /-- R323. -/
  | slotAck (port : Nat) (station : Nat) (effective : Nat)
  /-- R319. -/
  | paramResp (port : Nat) (msg : Msg)
  /-- R362. -/
  | acqData (port : Nat) (msg : Msg)
  /-- R333. -/
  | discoveryLaunch (port : Nat)
  /-- R330. -/
  | discoveryReply (port : Nat) (reply : DiscReply)
  /-- R333. -/
  | discoveryReplyLost (port : Nat)
  /-- R339. -/
  | timingComplete (port : Nat) (pos : Nat)
  /-- R339. -/
  | lockTimeout (port : Nat) (pos : Nat)
  /-- R340. -/
  | effectiveReached (port : Nat) (pos : Nat)
  /-- R342. -/
  | stationAbsent (port : Nat) (pos : Nat)
  /-- R345. -/
  | toleranceDecay
  /-- R346. -/
  | isolateNext (port : Nat)
  /-- R335. -/
  | retry (src : Source)
  /-- R345. -/
  | stationSuspend (src : Source)
  /-- R346. -/
  | unisolate (src : Source)
  /-- R137. -/
  | nop (lane : Nat) (f : PFields)
  /-- R137. -/
  | mpy4 (lane : Nat) (f : PFields)
  /-- R137. -/
  | mac4 (lane : Nat) (f : PFields)
  /-- R137. -/
  | msu4 (lane : Nat) (f : PFields)
  /-- R137. -/
  | mpy (lane : Nat) (f : PFields)
  /-- R137. -/
  | mac (lane : Nat) (f : PFields)
  /-- R137. -/
  | msu (lane : Nat) (f : PFields)
  /-- R114. -/
  | adl (lane : Nat) (f : PFields)
  /-- R137. -/
  | adda (lane : Nat) (f : PFields)
  /-- R137. -/
  | suba (lane : Nat) (f : PFields)
  /-- R137. -/
  | nega (lane : Nat) (f : PFields)
  /-- R137. -/
  | clra (lane : Nat) (f : PFields)
  /-- R117. -/
  | sha (lane : Nat) (f : PFields)
  /-- R114. -/
  | lda (lane : Nat) (f : PFields)
  /-- R117. -/
  | shae (lane : Nat) (f : PFields)
  /-- R116. -/
  | rnd (lane : Nat) (f : PFields)
  /-- R116. -/
  | rnde (lane : Nat) (f : PFields)
  /-- R119. -/
  | nrnd (lane : Nat) (f : PFields)
  /-- R119. -/
  | expa (lane : Nat) (f : PFields)
  /-- R120. -/
  | rsc (lane : Nat) (f : PFields)
  /-- R120. -/
  | bxclr (lane : Nat) (f : PFields)
  /-- R120. -/
  | shlb (lane : Nat) (f : PFields)
  /-- R137. -/
  | li (lane : Nat) (f : IFields)
  /-- R137. -/
  | mov (lane : Nat) (f : IFields)
  /-- R137. -/
  | addn (lane : Nat) (f : IFields)
  /-- R137. -/
  | subn (lane : Nat) (f : IFields)
  /-- R137. -/
  | andn (lane : Nat) (f : IFields)
  /-- R137. -/
  | orn (lane : Nat) (f : IFields)
  /-- R137. -/
  | xorn (lane : Nat) (f : IFields)
  /-- R137. -/
  | shln (lane : Nat) (f : IFields)
  /-- R137. -/
  | sarn (lane : Nat) (f : IFields)
  /-- R137. -/
  | adde (lane : Nat) (f : IFields)
  /-- R137. -/
  | imul (lane : Nat) (f : IFields)
  /-- R137. -/
  | idiv (lane : Nat) (f : IFields)
  /-- R137. -/
  | mine (lane : Nat) (f : IFields)
  /-- R125. -/
  | pld (lane : Nat) (f : IFields)
  /-- R125. -/
  | pst (lane : Nat) (f : IFields)
  /-- R125. -/
  | padd (lane : Nat) (f : IFields)
  /-- R125. -/
  | psub (lane : Nat) (f : IFields)
  /-- R126. -/
  | pext (lane : Nat) (f : IFields)
  /-- R128. -/
  | pacc (lane : Nat) (f : IFields)
  /-- R127. -/
  | pbf (lane : Nat) (f : IFields)
  /-- R140. -/
  | lget (lane : Nat) (f : IFields)
  /-- R140. -/
  | lgetu (lane : Nat) (f : IFields)
  /-- R140. -/
  | lgetb (lane : Nat) (f : IFields)
  /-- R140. -/
  | lgetbu (lane : Nat) (f : IFields)
  /-- R140. -/
  | ledgerReadComplete (lane : Nat)
  /-- R141. -/
  | lput (lane : Nat) (f : IFields)
  /-- R136. -/
  | bra (lane : Nat) (f : CFields)
  /-- R138. -/
  | call (lane : Nat) (f : CFields)
  /-- R145. -/
  | callb (lane : Nat) (f : CFields)
  /-- R132. -/
  | ret (lane : Nat) (f : CFields)
  /-- R131. -/
  | rep (lane : Nat) (f : CFields)
  /-- R139. -/
  | take (lane : Nat)
  /-- R99. -/
  | done (lane : Nat)
  /-- R272. -/
  | commitComplete (lane : Nat)
  /-- R229. -/
  | stepPulse (pair : Nat)
  /-- R233. -/
  | feedbackEdge (port : Nat) (levels : BitVec 3) (heldNs : Nat)
  /-- R236. -/
  | ssiTransfer (port : Nat) (ready : Bool) (bits : BitVec 40) (tailLow : Bool)
  /-- R248. -/
  | triggerInput (n : Nat) (level : Bool) (heldNs : Nat)
  /-- R251. -/
  | compareArm (src : Source) (station : Bool) (unit : Nat) (reg : CmpReg) (value : Word)
  /-- R250. -/
  | comparePulseEnd (unit : Nat)
  /-- R234. -/
  | overrateClear (src : Source) (which : OverrateOf)
  /-- R244. -/
  | refLostClear (src : Source)
  /-- R263. -/
  | eventArrival
  /-- R267. -/
  | handOff
  /-- R274. -/
  | tlrTakeRead (src : Source)
  /-- R275. -/
  | delayEntryFire
  /-- R277. -/
  | insert (src : Source)
  /-- R277. -/
  | cancel (src : Source)
  /-- R261. -/
  | suspend (src : Source)
  /-- R261. -/
  | resume (src : Source)
  /-- R261. -/
  | setflags (src : Source)
  /-- R261. -/
  | clrflags (src : Source)
  /-- R279. -/
  | softwareEvent (src : Source) (value : Word)
  /-- R288. -/
  | ledgerWindowRead (src : Source) (width : Width) (addr : Nat)
  /-- R288. -/
  | ledgerWindowWrite (src : Source) (width : Width) (addr : Nat) (value : Word64)
  /-- R287. -/
  | ledgerReady
  /-- R294. -/
  | requestEligible (req : Nat)
  /-- R296. -/
  | arbDecision
  /-- R296. -/
  | promotion (req : Nat)
  /-- R299. -/
  | allowanceWindowEnd
  /-- R294: the verdict on each entry that a read returns, in order (R293). -/
  | transferComplete (ecc : List Ecc)
  /-- R301. -/
  | tallyClear (src : Source) (value : Word)
  /-- R292. -/
  | dramAccessComplete
  /-- R358. -/
  | acqStart (src : Source)
  /-- R358. -/
  | acqStop (src : Source)
  /-- R360. -/
  | force (src : Source)
  /-- R361. -/
  | cal (src : Source)
  /-- R352. -/
  | fastSample
  /-- R361. -/
  | calTimeout
  /-- R353. -/
  | intervalEnd (fast : Bool)
  /-- R354. -/
  | bandwidthCheck
  /-- R355. -/
  | blockWritten
  /-- R357. -/
  | uploadRingSet (src : Source) (addr : Nat) (value : Word)
  /-- R366, R367. `ok`: the CRC of the frame holds. A mirror frame of any type whose CRC fails comes as this row: what it held is
  not known. -/
  | heartbeat (lane : Nat) (cycle : Nat) (heard : HbStamps) (sent : HbStamps) (ok : Bool)
  /-- R380. -/
  | escrowBegin (k : Nat) (epoch : Nat)
  /-- R380. -/
  | escrowLine (axis : Nat) (line : Nat) (words : List Word)
  /-- R380. -/
  | escrowTask (task : Nat) (st : Nat) (flags : Word)
  /-- R380. -/
  | escrowDelay (list : Nat) (entries : List DelayRec)
  /-- R380. -/
  | escrowDelta (id : Nat) (entry : Word64)
  /-- R380. -/
  | escrowPort (port : Nat) (hops : List Word) (cuts : List Word)
  /-- R380. -/
  | escrowEnd (count : Nat)
  /-- R378. -/
  | takebackRequest (kt : Nat)
  /-- R378. -/
  | takebackAck
  /-- R378. -/
  | go
  /-- R378. -/
  | abandon
  /-- R366. -/
  | mirrorDown
  /-- R366. -/
  | mirrorUp
  /-- R376. -/
  | issueFrameReceive (port : Nat) (hdr : IssueHdr)
  /-- R372. -/
  | takeoverDecide
  /-- R365. -/
  | seekClaim
  /-- R377. -/
  | takebackStart
  /-- R377. -/
  | takeback (src : Source)
  /-- R379. -/
  | relinquish (src : Source)
  /-- R377. -/
  | inhibitSet (src : Source)
  /-- R377. -/
  | inhibitClr (src : Source)
  /-- R395. -/
  | clearAll (src : Source)
  /-- R395. -/
  | dropDone
  /-- R395. -/
  | bpDone
  /-- R398. -/
  | deviceReset (cause : ResetCause) (pairsel : Bool)
  /-- R399. -/
  | pllLock
  /-- R399. -/
  | waveEnd (segs : List SegResult) (meas : WaveMeas)
  /-- R399. -/
  | waveTimeLimit (segs : List SegResult) (meas : WaveMeas)
  /-- R401. -/
  | keysReady
  /-- R402. -/
  | jtagInstruction (code : JtagInstr)
  /-- R406. -/
  | listenEnd
  /-- R409. -/
  | lastReducedApply
  /-- R410. -/
  | fullServiceBegin
  /-- R412. -/
  | submit (src : Source)
  /-- R413. -/
  | strongroomAnswer
  /-- R416. -/
  | monitorRead (r : MonReading)
  /-- R416. -/
  | readNow (src : Source)
  /-- R420. -/
  | maint (src : Source)
  /-- R419. -/
  | retuneTrialEnd (height : Nat) (width : Nat)
  /-- R421. -/
  | dailyProjection
  /-- R423. -/
  | pmbusVerify (readMv : Nat) (reply : PmbReply)
  /-- R422. -/
  | smbalert
  /-- R428. -/
  | exportDaybook (src : Source)
  /-- R428. -/
  | exportComplete
  /-- R426. -/
  | flush (src : Source)
  /-- R424. -/
  | closeAxis (src : Source)
  /-- R424. -/
  | daybookHourly
  /-- R436. -/
  | thermN (temps : List Int)
  /-- R30. -/
  | refclkReturn
  /-- R434. -/
  | vbakRestore
  /-- R433. -/
  | resetRelease
  /-- R451. -/
  | refusedAccess (src : Source) (write : Bool) (width : Width) (addr : Nat) (value : Word64)
  /-- R229. -/
  | stepPulseEnd (pair : Nat)
  /-- R439. -/
  | ainConversionDone (n : Nat) (microvolts : Int)
  deriving DecidableEq, Repr

end Sys2Proof
end

