-- ==== Sys2Proof/Decode.lean ====
section
/-!
DEFINITION. The command a word of the opcode table spells. The commands of the CV2560 arrive as accesses, frames, edges
and instants; no row of spec/opcode_table.json gives them bits.
-/
namespace Sys2Proof

/-- No row gives bits, so no word spells a command. Log 5 (DESIGN CHOICE). -/
def decodeTableWord (_nbits _w : Nat) : Option Instr := none

end Sys2Proof
end

