-- ==== Sys2Proof/Config.lean ====
section
/-!
DEFINITION. What an implementation of the CV2560 fixes and what spec/ leaves open as a value.
-/
namespace Sys2Proof

/-- The n-th value that spec/ leaves open. It has no body: a claim holds whatever these values are. A step that needs
one takes it at the state's own count of values drawn and advances the count. Log 4 (DESIGN CHOICE). -/
opaque Config.freeValue : Nat → Word64

/-- The 32 B journal entries that a Daybook record of so many content words takes, less one: spec/ gives the size of an entry and
not how a record is divided (R426). It has no body: a claim holds whatever it is. Log 38 (DESIGN CHOICE). -/
opaque Config.moreEntries : Nat → Nat

end Sys2Proof
end

