-- ==== Sys2Proof/Machine/State.lean ====
section
/-!
DEFINITION. The state of the CV2560 as plain data: every register, memory, queue and mode that the chapters of spec/
give it, with the queue of waiting commands, the reasons a step can stop, and the machine right after reset.
A docstring gives the chapter and rule of a field and its reset value where that is not zero, false or empty.
-/
namespace Sys2Proof.Machine

/-! ## The Charter as decoded (03_charter) -/

/-- PORT record (R63). -/
structure PortRec where
  port : Nat
  medium : Nat
  returnDue : Nat
  issueLead : Nat
  deriving DecidableEq, Repr

/-- SLOT record (R63). -/
structure SlotRec where
  station : Nat
  port : Nat
  pos : Nat
  matchKind : Nat
  rejoin : Nat
  policy : Nat
  io : Bool
  vendor : Word
  model : Word
  serial : Word64
  deriving DecidableEq, Repr

/-- AXIS record (R63). -/
structure AxisRec where
  axis : Nat
  mode : Nat
  rate : Nat
  phase : Nat
  source : Nat
  target : Word
  primary : Word
  loadFb : Word
  reaction : Nat
  overrunLimit : Nat
  deriving DecidableEq, Repr

/-- BLOCK record (R63): `params` runs from the stage-shape word of R146. -/
structure BlockRec where
  id : Nat
  inst : Nat
  mainSrc : Nat
  auxSrc : Nat
  params : List Word
  deriving DecidableEq, Repr

/-- CHAIN record with the BLOCK records that follow it (R53). -/
structure ChainRec where
  axis : Nat
  blocks : List BlockRec
  deriving DecidableEq, Repr

/-- TASK record (R63). -/
structure TaskRec where
  task : Nat
  prio : Nat
  flow : Nat
  mask : Word
  all : Bool
  entry : Nat
  cost : Nat
  rate : Nat
  axisTask : Bool
  deriving DecidableEq, Repr

/-- BIND record (R63, R263). -/
structure BindRec where
  kind : Nat
  index : Nat
  task : Nat
  bit : Nat
  deriving DecidableEq, Repr

/-- PIN record (R63). -/
structure PinRec where
  first : Word
  group : Bool
  deriving DecidableEq, Repr

/-- INIT record (R63, R459). -/
structure InitRec where
  first : Word
  values : List Word
  deriving DecidableEq, Repr

/-- CLASS record (R63, R65). -/
structure ClassRec where
  req : Nat
  cls : Nat
  allowance : Nat
  deriving DecidableEq, Repr

/-- CODE record (R67). -/
structure CodeRec where
  id : Nat
  cost : Nat
  code : List Word64
  deriving DecidableEq, Repr

/-- PAIR record (R63). -/
structure PairRec where
  lease : Nat
  settleMs : Nat
  inhibit : Bool
  deriving DecidableEq, Repr

/-- AGEING record (R63). -/
structure AgeingRec where
  permit : Bool
  vcoreMax : Nat
  reservePs : Nat
  warnDays : Nat
  deriving DecidableEq, Repr

/-- A Charter, decoded from its words (R52 to R70). -/
structure Charter where
  derateWaive : Bool
  test : Bool
  pair : Bool
  charterId : Word64
  digest : List Word
  keySlot : Nat
  baseRate : Nat
  ratesUsed : Nat
  ports : List PortRec
  slots : List SlotRec
  axes : List AxisRec
  chains : List ChainRec
  tasks : List TaskRec
  binds : List BindRec
  layout : Option Nat
  pins : List PinRec
  inits : List InitRec
  classes : List ClassRec
  windowLen : Nat
  urgentBeats : Nat
  pairRec : Option PairRec
  ageing : AgeingRec
  codes : List CodeRec
  testAuth : Option Word
  deriving DecidableEq, Repr

/-! ## Access errors and register pairs (20_register_map, 00_scope) -/

/-- GLB_ registers (R452 to R454). -/
structure Glb where
  /-- GLB_ACCESS_ERR: [0] WIDTH, [1] UNMAPPED, [2] RWS_LOCKED. -/
  accessErr : Word
  /-- GLB_ACCESS_ADDR_LO, _HI. -/
  accessAddr : Word64
  /-- GLB_ACCESS_SRC: SRC, WRITE, SIZE, FLAG and VALID of the captured access. -/
  accessSrc : Word
  /-- GLB_TEMP: TJ and SENSOR. -/
  temp : Word
  /-- GLB_SCRATCH. -/
  scratch : Word
  /-- THERM_N is driven low (R436). -/
  thermLow : Bool
  /-- PCLK cycle of the last access error, the flags as that cycle found them or a clear in it left them, the flags that it has set,
  and what it would have captured (R453). -/
  errAt : Nat
  errBase : Word
  errNew : Word
  errCap : Word64 × Word
  /-- The access-fault exception raised last in APP0 to APP3 and SVC: whether of a store, and the address (R451). -/
  coreFault : List (Option (Bool × Nat))
  /-- Values of _HI registers latched by reads of their _LO (R11), by address of the _HI register. -/
  hiLatch : List (Nat × Word)
  /-- Last values written to _LO registers (R11), by address of the _LO register. -/
  loWritten : List (Nat × Word)
  deriving DecidableEq, Repr

/-! ## Clocks and time (02_clocks_and_time) -/

/-- CLK_ registers and the root PLL (R28 to R35). -/
structure Clk where
  /-- CLK_STAT.LOCK; reset: not locked until PLL_LOCK, then 1. -/
  lock : Bool
  /-- CLK_STAT.HOLDOVER. -/
  holdover : Bool
  /-- CLK_STAT.REF_LOST. -/
  refLost : Bool
  /-- CLK_STAT.DERATED: ACLK at root/5 and CCLK at root/6. -/
  derated : Bool
  /-- CLK_STAT.REF_OFFS, as measured. -/
  refOffs : BitVec 16
  /-- CLK_DERATE. -/
  derate : Word
  /-- CLK_EVT. -/
  evt : Word
  /-- A setting requested by a write of CLK_DERATE.TARGET and not yet acted on (R32, R34). -/
  pending : Option Bool
  /-- The PLL is relocking to a returned REFCLK (R30). -/
  relocking : Bool
  deriving DecidableEq, Repr

/-- TIM_ registers, device time, plant time and the calendar (R36 to R51). -/
structure Tim where
  /-- Device time, ns (R36). -/
  now : Nat
  /-- TCLK edges since device time began, the slew left out (R29: the clocks of the root never change rate). -/
  edges : Nat
  /-- TCLK edges not yet turned into a slewed count, in units of 10^−8 count (R38). -/
  slewAcc : Int
  /-- CCLK sixths gathered since the last CCLK edge while derated (R29). -/
  cclkPhase : Nat
  /-- TIM_SLEW. -/
  slew : Word
  /-- Plant time in Q64.32 ns (R50). -/
  plant : Pos
  /-- TIM_PLANT_RATE. -/
  plantRate : Word
  /-- A plant step written and not yet added (R51). -/
  plantStep : Option Word
  /-- TIM_PLANT_STAT. -/
  plantStat : Word
  /-- TIM_CAL_SEC; always on (R44). -/
  calSec : BitVec 48
  /-- TIM_CAL_SUB; always on. -/
  calSub : BitVec 15
  /-- TIM_CAL_TRIM; always on (R46). -/
  calTrim : BitVec 16
  /-- Fraction of a period of the 32.768 kHz crystal, in units of 10^−17; always on. -/
  calFrac : Nat
  /-- Trim gathered over the edges and not yet made a tick, in units of 10^−8 tick; always on (R46). -/
  trimAcc : Int
  /-- The sub-second count is complete and the second carry is due; always on (R45). -/
  carryDue : Bool
  /-- A calendar value set by software, not yet taken; always on (R45). -/
  calSet : Option (BitVec 48)
  /-- Software has set the calendar since VBAK was last lost; always on (R429). -/
  calOk : Bool
  /-- A capture is requested (R47). -/
  capReq : Bool
  /-- TIM_CAP_DEV. -/
  capDev : Word64
  /-- TIM_CAP_PLANT, whole ns. -/
  capPlant : Word64
  /-- TIM_CAP_CAL: seconds, sub-second ticks and DONE. -/
  capSec : BitVec 48
  capSub : BitVec 15
  capDone : Bool
  /-- TIM_PFAIL; always on (R48). -/
  pfail : BitVec 48
  /-- VBAK is at 2.0 V or more (R434); reset: present. -/
  vbak : Bool
  deriving DecidableEq, Repr

/-! ## Charter block (03_charter, 17_power_up) -/

/-- CHT_STAT.STAGE_STATE (R73). -/
inductive StageState where
  | empty | loading | checking | staged | rejected | armed
  deriving DecidableEq, Repr

/-- How far the start of full service has come (R409 to R411). -/
inductive StartPhase where
  | none          -- no START taken since reset
  | clearing      -- the Ledger is being cleared and initialised
  | waitTs        -- reduced service runs on to the instant t_S
  | toT0          -- t(0) is chosen and not yet reached
  | running       -- full service
  deriving DecidableEq, Repr

/-- The outgoing Charter of the last swap, with its cycle, the axes live at its ARM and the page words that the service core
had written for it: a run in service at the swap completes under its old record (R84 to R86). -/
structure Outgoing where
  cycle : Nat
  live : List Nat
  charter : Charter
  writes : List (Nat × Word)
  deriving DecidableEq, Repr

/-- CHT_ registers, the two banks and what START and the swap hold (R72 to R87). -/
structure Cht where
  /-- Words of banks A and B (R72). -/
  bankA : List Word
  bankB : List Word
  /-- CHT_STAT.ACTIVE_BANK: false A, true B. -/
  activeBank : Bool
  /-- The active Charter; CHT_STAT.ACTIVE_VALID while there is one. -/
  active : Option Charter
  /-- The staged Charter, in STAGED and ARMED. -/
  staged : Option Charter
  /-- CHT_STAT.STAGE_STATE. -/
  stage : StageState
  /-- CHT_STAT.STAGED_LOAD and STAGED_DERATE_SAFE, and ACTIVE_DERATE_SAFE. -/
  stagedLoad : Nat
  stagedSafe : Bool
  activeSafe : Bool
  /-- CHT_SRC. -/
  src : Word64
  /-- CHT_SRC_LEN. -/
  srcLen : Word
  /-- CHT_SWAP_AT. -/
  swapAt : Word64
  /-- CHT_ERR.CODE and DETAIL. -/
  errCode : Nat
  errDetail : Nat
  /-- CHT_ERR_OFFS. -/
  errOffs : Word
  /-- CHT_EVT. -/
  evt : Word
  /-- CHT_HANDOVER0 to 7. -/
  handover : BitVec 256
  /-- CHT_KEYSLOT: active and staged key slots. -/
  activeKey : Nat
  stagedKey : Nat
  /-- Axes that were live at the ARM accepted last (R81, R85). -/
  armedLive : List Nat
  outgoing : Option Outgoing
  /-- Page words that the service core has written for the staged Charter, by page word index, newest first (R18, R77). -/
  pageWrites : List (Nat × Word)
  /-- Code placement: instruction address of each block placed, with its ID (R68, R144). -/
  placed : List (Nat × Nat)
  /-- Placement of the staged Charter's code between ARM and the swap (R82). -/
  prepared : List (Nat × Nat)
  /-- The start of full service. -/
  phase : StartPhase
  /-- t_S and t(0) in device time, once chosen (R409, R410). -/
  tS : Nat
  t0 : Nat
  /-- Stations kept over the START that have not yet sent SLOT_ACK (R409). -/
  keptWait : List Nat
  /-- A START has been taken since reset: the Ledger is placed and cleared (R287, R290). -/
  started : Bool
  deriving DecidableEq, Repr

/-! ## Cycle block (04_control_cycle) -/

/-- CYC_ registers and the timeline (R88 to R104). -/
structure Cyc where
  /-- CYC_STAT.SERVICE: 0 none, 1 reduced, 2 full. -/
  service : Nat
  /-- CYC_NUM, the cycle number of R15. -/
  num : Nat
  /-- The first full-service clearing point has passed (R15). -/
  numValid : Bool
  /-- The sample cycle in hand: samples were taken at its t(k). -/
  k : Nat
  /-- t(k) of the cycle in hand (R37). -/
  tk : Nat
  /-- Samples of the cycle in hand have been taken. -/
  sampled : Bool
  /-- The outputs are frozen between the deadline and the clearing point (R89). -/
  frozen : Bool
  /-- CYC_EVT. -/
  evt : Word
  /-- CYC_OVR_TOTAL. -/
  ovrTotal : Word
  /-- CYC_LATE_PORTS. -/
  latePorts : Word
  /-- CYC_LEAD_SHORT. -/
  leadShort : Word
  /-- CYC_SLACK_MIN; reset 0xFFFF_FFFF. -/
  slackMin : Word
  /-- CYC_AXSEL. -/
  axSel : Word
  /-- CYC_OVR_AXIS0 to 7. -/
  ovrAxis : BitVec 256
  /-- CYC_RXN_AXIS0 to 7. -/
  rxnAxis : BitVec 256
  deriving DecidableEq, Repr

/-! ## Axes (06_axis_loops to 08_profiles_and_steps) -/

/-- Speed and extension state of one feedback role, kept by the chain runner (R241 to R245). -/
structure FbRun where
  /-- c_last of R241. -/
  cLast : Word
  /-- The next record is a first record under R243; reset true. -/
  first : Bool
  /-- The next record is the first after the station was enrolled again (R243). -/
  rebind : Bool
  /-- mode of R245: true is edge counting. -/
  count : Bool
  /-- w of R245, in 2^−32 counts/s. -/
  w : Int
  /-- Time without a count for an SSI record, ns. -/
  still : Nat
  /-- STANDSTILL. -/
  standstill : Bool
  /-- Consecutive jobs with INVALID (R244). -/
  invalid : Nat
  /-- Remainder and ratio of the load scaling (R157). -/
  rem : Int
  num : Int
  den : Nat
  deriving DecidableEq, Repr

/-- The kind of the plan in force (R212 to R219). -/
inductive PlanKind where
  | target | jog | quick | limits
  deriving DecidableEq, Repr

/-- A stretch of a plan: where `step` is present the acceleration is set to it first; then the jerk holds for the duration.
Units of 2^−64: counts/s², counts/s³ and s. -/
structure Seg where
  step : Option Int
  jerk : Int
  dur : Nat
  deriving DecidableEq, Repr

/-- The plan in force: its kind, the settings it was formed under, its form, the state it starts from, its stretches, and
the time that jobs have advanced along it (R212 to R217). -/
structure Plan where
  kind : PlanKind
  /-- x, in 2^−32 counts. -/
  x : Int
  /-- VMAX, AMAX, DMAX, JMAX and the jog velocity, in counts/s and its derivatives. -/
  vmax : Nat
  amax : Nat
  dmax : Nat
  jmax : Nat
  jog : Int
  /-- PROF_REVERSE and OVERSHOOT_PLANNED. -/
  reverse : Bool
  overshoot : Bool
  /-- Position, velocity and acceleration at its start, in 2^−32 counts and derivatives. -/
  p0 : Int
  v0 : Int
  a0 : Int
  segs : List Seg
  /-- Time advanced, ns. -/
  elapsed : Nat
  deriving DecidableEq, Repr

/-- The set-point source in force (R164, R198). -/
inductive SrcKind where
  | profile | cam | pulse | analogue | quickStop | hold
  deriving DecidableEq, Repr

/-- Why the next job in time hands over (R201). -/
inductive HandKind where
  | none | swap | service | pair
  deriving DecidableEq, Repr

/-- The chain runner's own state of one axis (R153 leaves its place in the status area open). -/
structure AxisRun where
  /-- POS_CMD, POS_FB and POS_LOAD (R153). -/
  posCmd : Pos
  posFb : Pos
  posLoad : Pos
  /-- w_ref and a_ref in 2^−32 counts/s and counts/s² (R216). -/
  wRef : Int
  aRef : Int
  /-- EN of the last job's output. -/
  en : Bool
  /-- The source in force in the last job. -/
  source : SrcKind
  /-- Primary and load feedback. -/
  prim : FbRun
  load : FbRun
  /-- Pulse following: pulse_last, rem and the ratio in use (R165). -/
  pulseLast : Word
  pulseRem : Int
  gearNum : Int
  gearDen : Nat
  /-- GEAR_NUM and GEAR_DEN as found by the last job. -/
  gearNumSeen : Word
  gearDenSeen : Word
  /-- Analogue following: yf in 2^−32 counts/s (R166). -/
  yf : Int
  /-- Cam: the master position used, in 2^−32 counts, the master as extended, its last value, wm in 2^−32 counts/s, engage,
  whether engage has been formed since entry, stale jobs, MASTER_LOST (R168 to R170). -/
  camM : Int
  camExt : Int
  camRaw : Word
  camReady : Bool
  camWm : Int
  camEngage : Int
  camStale : Nat
  masterLost : Bool
  /-- Profile generator: the plan in force and PROF_DONE (R216). -/
  plan : Option Plan
  profDone : Bool
  /-- x of the last plan to a target, and PROF_REVERSE and OVERSHOOT_PLANNED as they stay set (R215). -/
  profX : Int
  profRev : Bool
  profOver : Bool
  /-- Following-error timer and trip (R195). -/
  feTimer : Nat
  feTrip : Bool
  /-- Reaction in force (0 none, 1 torque off, 2 controlled stop, 3 hold), its cause and STOP_DONE (R197, R208). -/
  react : Nat
  cause : Nat
  stopDone : Bool
  /-- The reaction was entered by the last job in time, whose output is not yet released (R197). -/
  reactNew : Bool
  /-- The station of the axis has bound again with REJOIN 1: a reaction of cause 4 clears (R343). -/
  rejoinClear : Bool
  /-- R152 start allowed only after a job with ENABLE 0 (R85). -/
  needOff : Bool
  /-- The station has begun to report HOLD_OFF: the next job starts under R152 (R371). -/
  holdStart : Bool
  /-- Hand-over offsets h_t, h_d, h_q in 2^−60 pu, and an occasion that waits for its job (R201 to R204). -/
  hT : Int
  hD : Int
  hQ : Int
  hand : HandKind
  /-- Mode of the controller that formed the last released output (R205). -/
  outMode : Nat
  /-- Outgoing torque, vd and vq of the last job in time, offsets included, in 2^−60 pu. -/
  tauOut : Int
  vdOut : Int
  vqOut : Int
  /-- Mode S: issued position, q_last, level, pending level and the local pulse accumulator as extended (R224 to R228). -/
  q : Int
  qLast : Int
  level : Nat
  pendLevel : Option Nat
  pulseInt : Int
  pulseRaw : Word
  /-- Z_SEEN has been seen (R257). -/
  zSeen : Bool
  zPos : Pos
  /-- AXIS_STAT of the last job in time (R163). -/
  stat : Word
  /-- The axis has run a job since it was added (R221, R243). -/
  ran : Bool
  deriving DecidableEq, Repr

/-- One axis: its runner state and what the cycle block and the line keep of it. -/
structure Axis where
  run : AxisRun
  /-- CYC_AXOVR: COUNT, CONSEC and CAUSE (R102). -/
  ovrCount : Nat
  ovrConsec : Nat
  ovrCause : Nat
  /-- The job of the sample cycle in hand committed in time, began a run, or was stopped on a full buffer (R101). -/
  inTime : Bool
  began : Bool
  bufStop : Bool
  /-- Sample cycle of the job in hand, and whether one is due. -/
  jobK : Nat
  jobDue : Bool
  /-- Output words frozen at the deadline and released at the clearing point (R89, R312). -/
  out0 : Word
  out1 : Word
  /-- The output is off until a job is in time: what the page holds is not released again (R103, R198). -/
  outOff : Bool
  /-- Causes found outside the jobs that take effect at the clearing point that releases the axis's next output (R103,
  R197). -/
  causes : List Nat
  /-- FBK_AXCFG and FBK_AXSSI in force, staged, and FBK_AXSTAT, for the primary role and the load role; reset
  0x0064_0204 and 0x0000_0019 (R258). -/
  cfg0 : Word
  cfg1 : Word
  ssi0 : Word
  ssi1 : Word
  cfgSt0 : Word
  cfgSt1 : Word
  ssiSt0 : Word
  ssiSt1 : Word
  stat0 : Word
  stat1 : Word
  /-- Station channel state of each role: last accepted SSI reading, last raw form's Hall state and COUNT, the decoder's
  SSI counter, Hall fault flag with its run of good changes, and ZLATCH last seen (R236, R238). -/
  chanSsi0 : Option Nat
  chanSsi1 : Option Nat
  chanRaw0 : Option (Word × Nat)
  chanRaw1 : Option (Word × Nat)
  chanCnt0 : Word
  chanCnt1 : Word
  chanHall0 : Bool
  chanHall1 : Bool
  chanGood0 : Nat
  chanGood1 : Nat
  /-- The next SSI reading of the channel is a first reading (R236, R238). -/
  chanFirst0 : Bool
  chanFirst1 : Bool
  /-- Rejected readings and Hall faults of a local port that FBK_AXSTAT of each role has taken (R258). -/
  badSeen0 : Nat
  badSeen1 : Nat
  hallSeen0 : Nat
  hallSeen1 : Nat
  /-- Changes of DIR and of ZLATCH at a local port that the last record of each role has shown (R239). -/
  dirSeen0 : Nat
  dirSeen1 : Nat
  zSeen0 : Nat
  zSeen1 : Nat
  /-- Daybook counts of the open AXIS record: travel, reversals, ns of base cycles energised and faults by cause (R424). -/
  travel : Nat
  reversals : Nat
  energised : Nat
  faults : List Nat
  dbkSerial : Word64
  deriving DecidableEq, Repr

/-! ## Lanes (05_lane_datapath) -/

/-- LNE_STAT.STATE (R149). -/
inductive LaneState where
  | waiting | running | committing | holding
  deriving DecidableEq, Repr

/-- A level of the repeat stack (R131): first and last instruction of the body and the passes left. -/
structure RepLevel where
  first : Nat
  last : Nat
  left : Nat
  deriving DecidableEq, Repr

/-- A level of the return stack, with the repeat depth at the call (R132). -/
structure RetLevel where
  addr : Nat
  depth : Nat
  deriving DecidableEq, Repr

/-- A posted Ledger write (R141). -/
structure Post where
  id : Nat
  value : Word
  status : Nat
  stamp : Nat
  deriving DecidableEq, Repr

/-- A Ledger read a lane stalls on (R140): where its data goes. -/
inductive LaneRead where
  | single (id : Nat) (nd : Nat)
  | block (id : Nat) (count : Nat) (ix : Nat)
  deriving DecidableEq, Repr

/-- How far the job of a lane has come. -/
inductive JobPhase where
  | handed      -- handed off, not yet run
  | code        -- lane code runs, instruction by instruction
  | finished    -- ready for DONE
  | stalled     -- back-pressure holds the lane's transfers (R396)
  deriving DecidableEq, Repr

/-- The run a lane has in service (R139, R272). -/
structure Job where
  task : Nat
  flow : Nat
  axis : Option Nat
  k : Nat
  stamp : Nat
  flags : Word
  d : Nat
  handedAt : Nat
  phase : JobPhase
  /-- Runner state that DONE will commit for an axis job, and the runner state the job began from. -/
  next : Option AxisRun
  base : Option AxisRun
  /-- N15 that ended the chain (R148). -/
  n15 : Word
  /-- The block table of the placement that the run was handed off under: its CALLBs are resolved by it, over a swap too
  (R86, R144, R145). -/
  placed : List (Nat × Nat)
  deriving DecidableEq, Repr

/-- One control lane (R105 to R149). -/
structure Lane where
  x : List Word
  y : List Word
  n : List Word
  e : List Word
  p : List Pos
  ix : List (BitVec 17)
  ox : List (BitVec 17)
  iy : List (BitVec 17)
  oy : List (BitVec 17)
  a : List (BitVec 80)
  /-- BXD, 0 to 31. -/
  bxd : Nat
  /-- LFLG: [0] SAT, [1] OVF, [2] UNF, [3] EXP. -/
  lflg : Word
  /-- Instruction address, 15 bits (R108). -/
  pc : Nat
  /-- Data RAM by word index; the constant areas of R109 are not stored here. -/
  ram : Mem 32
  /-- Scratch is not preserved from one task to the next (R109): while this holds n, word i of scratch is stored as its
  difference (XOR) to free value n + i. -/
  scratch : Option Nat
  /-- Lines marked in the commit buffer (R113). -/
  marks : List Nat
  rep : List RepLevel
  ret : List RetLevel
  post : List Post
  state : LaneState
  job : Option Job
  /-- The Ledger read the lane waits for, and the entries its transfer has delivered (R140). -/
  stall : Option LaneRead
  got : Option (List Word64)
  /-- LNE_FAULT, LNE_FAULT_PC, LNE_FAULT_TASK, LNE_ARITH. -/
  fault : Word
  faultPc : Nat
  faultTask : Nat
  arith : Word
  /-- LNE_JOBS and LNE_BUSY. -/
  jobs : Nat
  busy : Nat
  /-- Device time at which the lane began to wait in TAKE (R268). -/
  waitSince : Nat
  /-- Urgent beats used in the present base cycle (R297). -/
  urgentUsed : Nat
  deriving DecidableEq, Repr

/-! ## Teller (10_teller) -/

/-- STATE of a task (R261). -/
inductive TaskState where
  | waiting | ready | service | suspended
  deriving DecidableEq, Repr

/-- A defined task (R259). -/
structure Task where
  num : Nat
  prio : Nat
  flow : Nat
  rate : Nat
  phase : Nat
  all : Bool
  axisTask : Bool
  entry : Nat
  mask : Word
  flags : Word
  st : TaskState
  /-- A run is in service while the task is suspended (R281). -/
  running : Bool
  runs : Word
  /-- Sample cycle of the last RETURN event delivered, once there is one (R265). -/
  lastK : Option Nat
  /-- Arrival of the event that made its flags satisfy its mask since its last hand-off (R280). -/
  arrived : Option Nat
  /-- The task dispatches under this record only after its run in service ends (R86). -/
  changed : Bool
  /-- Of an AXIS_TASK: the sample cycles below this one have passed their deadline (R101). -/
  shut : Nat
  deriving DecidableEq, Repr

/-- An event raised and not yet arrived (R263): its kind and index, the base cycle it belongs to, and the bindings
generation under which it was raised (R266). -/
structure Event where
  kind : Nat
  index : Nat
  k : Nat
  gen : Nat
  deriving DecidableEq, Repr

/-- An entry of a delay list (R275); `timer` where a BIND of kind TIMER made it (R276). -/
structure Delay where
  task : Nat
  flag : Nat
  due : Nat
  period : Nat
  timer : Bool
  deriving DecidableEq, Repr

/-- TLR_ registers and the scheduler's tables (R259 to R281). -/
structure Teller where
  tasks : List Task
  /-- Sixteen ready lists of task numbers, oldest first. -/
  ready : List (List Nat)
  /-- Flows held, from hand-off to the end of the run (R272). -/
  flows : List Nat
  /-- Events raised and not yet arrived, oldest first. -/
  raised : List Event
  /-- Bindings in force, bindings before the last swap, and the generation in force. -/
  binds : List BindRec
  oldBinds : List BindRec
  gen : Nat
  /-- Delay lists DL0 to DL7. -/
  lists : List (List Delay)
  /-- Entries taken by ticks whose flags are not yet set, oldest first. -/
  dueQ : List Delay
  /-- TLR_STAT.LANE_EN. -/
  laneEn : BitVec 16
  evt : Word
  err : Word
  taskSel : Word
  taskArg : Word
  merged : Word
  removed : Word
  stopped : Word
  latMax : Word
  dlyTask : Word
  dlyDue : Word64
  dlyPeriod : Word
  ipend : List Word
  ien : List Word
  cbind : List Word
  deriving DecidableEq, Repr

/-! ## Ledger and arbiter (11_ledger_and_arbiter) -/

/-- LGR_ registers, the store and its cache (R282 to R293). -/
structure Ledger where
  /-- Entries by identifier; an unlisted entry is value 0, status 0, stamp 0 (R287). -/
  mem : Mem 64
  ready : Bool
  clearing : Bool
  pinLoading : Bool
  base : Word64
  /-- Pinned identifier ranges: first and count (R66, R291). -/
  pins : List (Nat × Nat)
  /-- Lines held, least recently used first (R291). -/
  lines : List Nat
  /-- Fills waiting at the DRAM controller: line numbers (R292). -/
  fills : List Nat
  /-- Lines of the beats that wait in the write buffer for their fill (R460). -/
  wbuf : List Nat
  hits : Word64
  misses : Word64
  evt : Word
  /-- LGR_ERR_ID. -/
  errId : Word
  eccCorr : Word
  /-- Entries whose stored bits have an uncorrectable error, until they are next written (R293). -/
  bad : List Nat
  deriving DecidableEq, Repr

/-- What a fabric transfer does at its last beat (R294). -/
inductive Xfer where
  | laneRead (lane : Nat)
  | lanePost (lane : Nat)
  | windowRead (src : Source) (width : Width) (id : Nat) (hi : Bool)
  | windowWrite (src : Source) (width : Width) (id : Nat) (hi : Bool) (value : Word64)
  | acqRead (chans : List Nat) (k : Nat)
  /-- 256 bytes of the record stream, counted from START (R354). -/
  | acqWrite (piece : Nat)
  deriving DecidableEq, Repr

/-- A fabric request (R294 to R298). -/
structure Req where
  req : Nat
  xfer : Xfer
  beats : Nat
  urgent : Bool
  eligible : Bool
  restart : Bool
  promoted : Bool
  /-- FCLK cycle in which it was first sampled, and cycles of WAIT gathered (R301). -/
  sampledAt : Option Nat
  waited : Nat
  deriving DecidableEq, Repr

/-- The transfer that owns the fabric. -/
structure Owner where
  r : Req
  /-- FCLK cycle of the decision that granted it. -/
  granted : Nat
  /-- The data phase began with a turn cycle (R295). -/
  turn : Bool
  deriving DecidableEq, Repr

/-- ARB_ registers of one requester and its Tally (R299, R301). -/
structure ArbReq where
  /-- Class (0 urgent, 1 high, 2 normal, 3 low) and ALLOWANCE in force; reset normal and 64. -/
  cls : Nat
  allowance : Nat
  count : Nat
  masked : Bool
  grants : Word
  wait : BitVec 48
  waitMax : Nat
  /-- The FCLK cycle of the last update of the Tally, and what that cycle has added to GRANTS and WAIT and its largest total: a
  clear in the same cycle comes before it (R301). -/
  updAt : Nat
  updGrants : Word
  updWait : BitVec 48
  updMax : Nat
  deriving DecidableEq, Repr

/-- ARB_ registers and the fabric (R294 to R301). -/
structure Arb where
  /-- Requests waiting, in the order issued. -/
  reqs : List Req
  owner : Option Owner
  lastOwner : Nat
  /-- The next transfer of the last owner would be a parked repeat. -/
  parked : Bool
  lastSealed : Bool
  /-- Requester that each group of R296 last won: urgent, sealed, high, normal, low. -/
  rr : List Nat
  /-- Per requester 0 to 23. -/
  per : List ArbReq
  /-- FCLK cycle at which the present window began. -/
  winStart : Nat
  winLen : Nat
  urgentBeats : Nat
  /-- Classes, window length and urgent budget that wait for the next window (R299). -/
  pendingCls : Option (List (Nat × Nat) × Nat × Nat)
  evt : Word
  preempts : Word
  deriving DecidableEq, Repr

/-! ## Tabna ports, positions and stations (12_tabna_lines, 13_enrolment_and_violations) -/

/-- STATE of a position (R335). -/
inductive PosState where
  | absent | found | identified | unbound | timing | configuring | bound | suspended | isolated
  deriving DecidableEq, Repr

/-- A message queued for the downstream acyclic area or a discovery cell (R319, R331). -/
structure TxMsg where
  /-- Target station number, 0x3FF broadcast; the position for a message in a discovery cell. -/
  station : Nat
  /-- True where the message travels in a discovery cell. -/
  cell : Bool
  kind : Nat
  payload : List Word
  deriving DecidableEq, Repr

/-- A timed output event of a compare unit (R253, R322). -/
structure TimedEvt where
  unit : Nat
  station : Nat
  tc : Nat
  out : Nat
  action : Nat
  pulseW : Nat
  /-- It did not fit into an earlier frame. -/
  deferred : Bool
  deriving DecidableEq, Repr

/-- One position of a line (R335 to R343). -/
structure Position where
  st : PosState
  reason : Nat
  station : Option Nat
  vendor : Word
  model : Word
  serial : Word64
  caps : Word
  /-- Descriptor words read (R334). -/
  desc : List Word
  /-- Descriptor offset asked for, and exchanges without an answer (R336). -/
  ask : Option Nat
  noAnswer : Nat
  /-- Timing exchanges counted (R339). -/
  exchanges : Nat
  /-- ASSIGN is to be sent, and the base cycle of the first that was (R339). -/
  assign : Bool
  assignAt : Option Nat
  /-- SEQ of the discovery frame that last carried IDENT_REQ to the position (R331). -/
  askSeq : Option Word
  /-- EFFECTIVE of the configuration in hand, the attempts made, whether it is acknowledged, and when it was last sent (R340). -/
  effective : Nat
  attempts : Nat
  acked : Bool
  sentAt : Nat
  /-- EFFECTIVE acknowledged for a swap (R463). -/
  ackedFor : Option Nat
  /-- No further attempt until RETRY or rejoin (R345). -/
  blocked : Bool
  /-- CUT_UI of the last reply. -/
  cutUi : Nat
  /-- Tolerance counters of codes 1 to 10, the cycle of the last record of each beyond tolerance, and the codes whose
  counter has exceeded its tolerance and not yet returned to 0 (R345, R348). -/
  tol : List Nat
  logged : List (Option Nat)
  degr : List Nat
  /-- SERIAL of the station that these counters were kept for before it was identified again (R345). -/
  tolOf : Option Word64
  /-- The station was matched against the staged Charter for an armed swap (R341). -/
  ahead : Bool
  /-- The station number that a station which holds none was last matched or bound with: its ENR item shows it (R349). -/
  refused : Option Nat
  deriving DecidableEq, Repr

/-- One station number (R314, R328, R345, R349). -/
structure Station where
  present : Bool
  ready : Bool
  locked : Bool
  holdOff : Bool
  evtLate : Bool
  stale : Bool
  cutUi : Nat
  din : Word
  /-- SERIAL of the bound station. -/
  serial : Word64
  enrolments : Word
  violations : Word
  lastLeave : Word
  /-- Missing slots in consecutive sample cycles (R342). -/
  missing : Nat
  /-- DOUT and DOUT_EN in force at the last clearing point (R328). -/
  dout : Word
  doutEn : Word
  /-- Downstream credits left and timed events pending at the station (R320, R322). -/
  credit : Nat
  timed : List Nat
  /-- Outstanding PARAM requests, by TAG (R319). -/
  params : List Nat
  /-- Sample cycle of the first return slot with HOLD_OFF (R370). -/
  holdFrom : Option Nat
  deriving DecidableEq, Repr

/-- The issue slot of a station as launched (R311, R312). -/
structure IssueSlot where
  station : Nat
  terminate : Bool
  /-- D(n) in UI, with the skew of R393. -/
  dUi : Word
  /-- Output words of the axis records, in axis-slot order. -/
  recs : List (Word × Word)
  /-- DOUT and DOUT_EN where IO is set. -/
  io : Option (Word × Word)
  deriving DecidableEq, Repr

/-- The issue frame a port last launched (R310). -/
structure IssueFrame where
  hdr : List Word
  rlen : List Nat
  grant : List Nat
  slots : List IssueSlot
  timed : List TimedEvt
  msgs : List TxMsg
  len : Nat
  /-- Its characters between SOF and EOF: the header, the slots and the messages, each with its CRC (R306, R310). -/
  wire : List Byte
  deriving DecidableEq, Repr

/-- TBP_ registers and the frame engines of one port (R302 to R328), with its discovery state (R329 to R346). -/
structure Port where
  linkUp : Bool
  /-- TBP_STAT.RATE: true is 5 Gbaud. -/
  rate : Bool
  medium : Bool
  sfpPresent : Bool
  sfpLos : Bool
  stations : Nat
  ctrl : Word
  evt : Word
  /-- TBP_EQ; reset 0x0008_0806. -/
  eq : Word
  eye : Word
  symErr : Word
  crcErr : Word
  lenErr : Word
  missing : Word
  launchUi : Nat
  rarrUi : Nat
  lenIssue : Nat
  lenReturn : Nat
  acyTx : Word
  acyRx : Word
  /-- Mean hop delays and cut-through delays of positions 1 to 16, UI. -/
  hop : List Nat
  cut : List Nat
  /-- The last 64 values of 2 × h(n) for each hop from the cyclic frames, newest first (R41, R318). -/
  hopHist : List (List Int)
  /-- The last 256 values of 2 × h(n) for each hop from discovery exchanges, newest first (R41, R336). -/
  exchHist : List (List Int)
  /-- Stations of the line when it was last seen whole: what positions counted from the other end rest on (R307). -/
  lineN : Nat
  /-- Delay of the whole line, UI, as a unit measures it on issue frames that the other forwards (R373). -/
  lineUi : Nat
  /-- Grants of the last issue frame by position, and the station served last (R321). -/
  grant : List Nat
  grantNext : Nat
  upReq : List Nat
  /-- RLEN vectors of the last eight issue frames, newest first (R313). -/
  rlenHist : List (List Nat)
  /-- The frame last launched, and messages and timed events waiting. -/
  frame : Option IssueFrame
  txq : List TxMsg
  timedQ : List TimedEvt
  /-- RATE countdown: frames left and the new rate; the change waits for the next return (R324). -/
  rateCount : Nat
  rateTo : Bool
  rateDue : Bool
  /-- Stations of the return frame of the cycle in hand, by frame slot: those that RLEN of the issue frame gave one (R310, R313). -/
  retSlots : List Nat
  /-- Station numbers that the cells of the last discovery reply reported, with their positions (R345). -/
  reported : List (Nat × Nat)
  /-- The return-arrival event of the cycle has been raised (R91). -/
  returned : Bool
  /-- The return slots of the cycle have been judged, so that their axes are stale or not (R316). -/
  judged : Bool
  /-- Launching is stopped: isolation at position 1 on copper (R346). -/
  stopped : Bool
  /-- The issue frame and the discovery frame of the cycle have been launched; return frames are not used until the next
  issue frame (R310, R329, R410). -/
  launched : Bool
  discDone : Bool
  /-- Messages in the cells of the discovery frame launched last, and the four words of its header (R329, R331). -/
  discCells : List TxMsg
  discHdr : List Word
  /-- Discovery frame count, the exchange outstanding, and its launch stamp in UI (R329, R333). -/
  seq : Word
  pendingDisc : Option Word
  discLaunchUi : Nat
  discMsgs : List TxMsg
  /-- DSC_PSTATp: FOUND, ISOLATE_POS, NO_ROOM. -/
  found : Nat
  isolatePos : Nat
  noRoom : Bool
  /-- TERMINATE is set in the issue slot of this position (R346). -/
  terminate : Nat
  /-- Tolerance counters of the port counts, codes 1 to 10, and the last record logged of each (R345). -/
  tol : List Nat
  logged : List (Option Nat)
  /-- Unattributed babble seen since isolation, and the base cycle of that isolation (R346). -/
  babble : Bool
  isolateK : Nat
  pos : List Position
  deriving DecidableEq, Repr

/-- The counters of a station that has left its position, kept for its SERIAL (R345). -/
structure Parted where
  serial : Word64
  tol : List Nat
  logged : List (Option Nat)
  degr : List Nat
  deriving DecidableEq, Repr

/-- DSC_ registers (R333 to R348). -/
structure Dsc where
  /-- DSC_CTRL; reset 1. -/
  ctrl : Word
  sel : Word
  evt : Word
  ringHead : Nat
  ringSeq : Word
  /-- DSC_TOL1 to 10; reset as the table *Violations*. -/
  tol : List Word
  /-- Tolerance counters of stations that stand at no position (R345). -/
  parted : List Parted
  /-- Commands of DSC_CMD in the base cycle in hand: RETRY 0, SUSPEND 1 or UNISOLATE 2, the port, the position, and the state that
  it left there (R347). -/
  cmds : List (Nat × Nat × Nat × Nat)
  deriving DecidableEq, Repr

/-! ## Local I/O (09_feedback, 08_profiles_and_steps, 19_limits_and_electrical) -/

/-- A local feedback port (R232 to R239). -/
structure FbPort where
  /-- FBK_PCFGn in force and staged; reset 0x0051_9020. -/
  cfg : Word
  cfgSt : Word
  count : Word
  invalid : Bool
  overrate : Bool
  hallInvalid : Bool
  ssiErr : Bool
  dir : Bool
  zSeen : Bool
  zLatch : Word
  tLast : Nat
  glitch : Word
  /-- Filtered levels of the three inputs, and the levels at the pins before the filter (R233, R249). -/
  levels : BitVec 3
  pins : BitVec 3
  /-- Counted edges so far, 0, 1 or 2 for two and more; INTERVAL between the last two. -/
  edges : Nat
  interval : Nat
  /-- Device time of the last change of DIR in step and direction decoding. -/
  dirAt : Nat
  /-- Good Hall changes since the last fault. -/
  hallGood : Nat
  /-- Changes of DIR and of ZLATCH so far: a record tells from them what changed since the one before it (R239). -/
  dirN : Nat
  zN : Nat
  /-- SSI: the last accepted reading, the reading of the present cycle, and whether that one was rejected (R236). -/
  ssiPrev : Option Nat
  ssiAbs : Nat
  ssiBad : Bool
  /-- The next reading is a first reading, which the difference check is not applied to (R236). -/
  ssiFirst : Bool
  /-- Device time at which an accepted reading last moved the counter. -/
  ssiAt : Nat
  /-- Rejected readings and Hall faults so far, and as latched at t(k): a record tells from them what came since the one
  before it (R239, R258). -/
  badN : Nat
  hallN : Nat
  latBadN : Nat
  latHallN : Nat
  /-- FBnCLK stands at its level from reset: no SSI transfer yet (R440). -/
  clkIdle : Bool
  /-- Counter, port status and ZLATCH latched at t(k) (R286). -/
  latCount : Word
  latStat : Word
  latZ : Word
  latAge : Nat
  latInterval : Nat
  latDir : Bool
  latDirN : Nat
  latZN : Nat
  latAbs : Nat
  latBad : Bool
  deriving DecidableEq, Repr

/-- A trigger input (R248). -/
structure Trg where
  /-- FBK_TCFGn; reset 0x0000_0020. -/
  cfg : Word
  fired : Bool
  level : Bool
  armed : Bool
  latchInvalid : Bool
  time : Nat
  latch : Word
  /-- Firings since reset, and as latched at t(k) (R89, R286). -/
  firings : Word
  latFirings : Word
  deriving DecidableEq, Repr

/-- A repeat output (R249). -/
structure Fbo where
  /-- FBK_RCFGn; reset 0x0001_0000. -/
  cfg : Word
  /-- Remainder of input counts and the phase of the regenerated quadrature. -/
  rem : Int
  phase : Nat
  pins : BitVec 3
  deriving DecidableEq, Repr

/-- A compare unit, local or station (R250 to R254). -/
structure Cmp where
  cfg : Word
  val : Word64
  step : Word
  behind : Bool
  fired : Bool
  late : Bool
  miss : Bool
  level : Bool
  /-- CMP_LTIMEn or CMP_STIMEm. -/
  time : Nat
  /-- Device time at which the pin of a local unit took its last action (R250). -/
  actAt : Nat
  /-- Events sent and not yet checked: tc, the V to be crossed, and whether downwards (R254). -/
  checks : List (Nat × Int × Bool)
  deriving DecidableEq, Repr

/-- A local STEP/DIR pair (R228, R229). -/
structure StepPair where
  /-- Pulse accumulator in 2^−32 pulses. -/
  acc : Int
  /-- INC in force and EN. -/
  inc : Int
  en : Bool
  /-- Accumulator as latched at t(k). -/
  lat : Int
  /-- Pulses to emit, in the order in which the integer part changed: runs of one direction, true for a change downwards,
  with their lengths (R229). -/
  due : List (Bool × Nat)
  step : Bool
  dir : Bool
  /-- Device time of the last rise and fall of STEP and of the last change of DIR. -/
  riseAt : Nat
  fallAt : Nat
  dirAt : Nat
  /-- PULSE_NS and DIR_SETUP_NS of the axis on the pair. -/
  pulseNs : Nat
  setupNs : Nat
  deriving DecidableEq, Repr

/-- Local inputs and outputs: FBK_, CMP_, STEP/DIR, GPIO and AIN (R228 to R258, R286, R439). -/
structure Local where
  axSel : Word
  fb : List FbPort
  trg : List Trg
  fbo : List Fbo
  /-- CMP_LFIRED, CMP_SFIRED, CMP_LBEHIND, CMP_SBEHIND. -/
  lFired : Word
  sFired : Word
  lBehind : Word
  sBehind : Word
  lcmp : List Cmp
  scmp : List Cmp
  /-- Writes of local units that wait for the next TCLK edge, oldest first: unit, register and value (R252). -/
  cmpWrites : List (Nat × CmpReg × Word)
  /-- t(k) of the last latch of local inputs (R255). -/
  latTk : Nat
  step : List StepPair
  /-- GPIO: levels at the pins, inputs latched at t(k), output levels and enables as written, released and driven. -/
  gpioIn : Word
  gpioLat : Word
  gpioOutW : Word
  gpioEnW : Word
  gpioOutR : Word
  gpioEnR : Word
  gpioOut : Word
  gpioEn : Word
  /-- AIN: last complete code of each input, and the code latched at t(k). -/
  ain : List (BitVec 16)
  /-- Sample instant of that code, where one is complete (R439). -/
  ainAt : List (Option Nat)
  ainLat : List (BitVec 16)
  /-- Stamp of the latched items (R286). -/
  latStamp : Nat
  deriving DecidableEq, Repr

/-! ## Acquisition (14_acquisition) -/

/-- ACQ_STAT.STATE (R357). -/
inductive AcqState where
  | idle | filling | armed | post | done | cal
  deriving DecidableEq, Repr

/-- The reduction of an interval: whether it holds a fresh sample, with the minimum and the maximum (R353). -/
structure AcqAcc where
  fresh : Bool
  minV : Word
  maxV : Word
  deriving DecidableEq, Repr

/-- One channel: the interval whose record comes next, later ones that have samples, by their first base cycle or first device
time, the values of the last record, and the last fresh sample with its instant in ns and its TSAMP (R353, R360). -/
structure AcqChan where
  cur : AcqAcc
  nxt : List (Nat × AcqAcc)
  lastMin : Word
  lastMax : Word
  prev : Option (Word × Nat × Nat)
  deriving DecidableEq, Repr

/-- ACQ_ registers and the engine (R350 to R363). -/
structure Acq where
  state : AcqState
  trigValid : Bool
  wrapped : Bool
  reason : Nat
  evt : Word
  base : Word64
  size : Word
  prefill : Word
  /-- ACQ_POST; reset 1. -/
  post : Word
  ivl : Word
  cLog : Nat
  fLog : Nat
  /-- ACQ_BW; reset 0x190. -/
  bw : Word
  /-- ACQ_TRIG; reset 0x600. -/
  trig : Word
  thr : Word
  hyst : Word
  calRef : Word
  wptr : Nat
  tblock : Nat
  bseq : Word
  dropped : Word
  ttime : Word64
  tfrac : Nat
  tf : Nat
  tsamp : Word64
  fch : List Word
  ch : List Word
  skOff : List Word
  skRes : List Word
  upBase : Word64
  upSize : Word
  upHead : Word
  upTail : Word
  upDrop : Word
  /-- The block in progress: its number, from 1 at START, and its words; and complete blocks not yet written. -/
  blockN : Nat
  blockWords : List Word
  blocksOut : List (Nat × List Word)
  /-- Blocks written since START. -/
  written : Nat
  /-- Pieces of 256 B of the record stream that have been asked for on the fabric, and that have completed there (R354). -/
  issued : Nat
  moved : Nat
  /-- Block that holds the TRIGGER record and the record's place in it; the device time at which it was placed, and whether
  FORCE placed it. -/
  trigAt : Option (Nat × Nat)
  placedAt : Option (Nat × Bool)
  /-- Records dropped since the last record written (GAP). -/
  gap : Nat
  /-- Bytes formed in the present ms: all records, cycle stream, fast stream. -/
  bytes : Nat
  bytesC : Nat
  bytesF : Nat
  /-- Interval lengths that wait for their first instant, each with that base cycle or device time. -/
  cNext : List (Nat × Nat)
  fNext : List (Nat × Nat)
  /-- First base cycle and first device time of the present intervals. -/
  cFirst : Nat
  fFirst : Nat
  /-- Device time of the last fast sample and of the last comparison with the allotment. -/
  fastAt : Option Nat
  checkAt : Option Nat
  /-- Seventy-two channels. -/
  chan : List AcqChan
  /-- Edge detectors primed for rising and falling (R359). -/
  primedUp : Bool
  primedDown : Bool
  /-- Calibration: when CAL was taken, the reference time and the placement, in 2^−8 ns (R361). -/
  calStart : Nat
  calRefT : Option Int
  calChT : Option Int
  deriving DecidableEq, Repr

/-! ## Paired units (15_paired_units) -/

/-- PAR_STAT.ROLE (R365). -/
inductive Role where
  | single | seeking | active | standby | isolated
  deriving DecidableEq, Repr

/-- How far a takeback or relinquish has come, on the unit that gains and on the unit that yields (R378). -/
inductive TakeStep where
  | none | requested | acked | goSent | asked | goHeard
  deriving DecidableEq, Repr

/-- A mirror frame between SOF and EOF: the header word, TYPE in [7:0] and the payload length in bytes in [26:16], the payload, the
CRC, and the lane that carries it (R366). -/
structure MirFrame where
  hdr : Word
  payload : List Word
  crc : BitVec 16
  lane : Nat
  deriving DecidableEq, Repr


/-- PAR_ registers and the pair manager (R364 to R383). -/
structure Par where
  role : Role
  /-- PAIRSEL: true secondary (R364). -/
  unit : Bool
  /-- Lanes aligned, and the mirror link up: valid frames come (R366). -/
  mir : List Bool
  link : Bool
  sync : Bool
  inhibit : Bool
  timeLocked : Bool
  evt : Word
  cfg : Word
  epoch : Nat
  highest : Nat
  /-- k_r and the cycle of the last complete Escrow. -/
  renew : Nat
  escrow : Nat
  escrowValid : Bool
  /-- PAR_TOFFS, signed ns. -/
  toffs : Int
  terr : Int
  mirDly : Nat
  /-- Time at which ESCROW_SYNC last rose (R377). -/
  syncSince : Nat
  mirErr : Word
  lease : Nat
  /-- A LEASE that a swap has brought and that applies from the next renewal (R86). -/
  leaseDue : Option Nat
  /-- The unit holds the Warrant in force (claims and renews). -/
  holds : Bool
  /-- A claim scheduled for the issue frame of this cycle (R372). -/
  claimAt : Option Nat
  epochBefore : Nat
  /-- The epoch claimed last; it is in force from the claim frame on (R369, R372). -/
  claim : Nat
  takeStep : TakeStep
  takeAt : Nat
  /-- Cycle number at which the request was sent. -/
  takeFrom : Nat
  /-- The unit yields the Warrant in the transfer in hand. -/
  yields : Bool
  /-- Escrow being received: cycle, records seen. -/
  rxK : Option Nat
  rxCount : Nat
  /-- Cycle of the Escrow latched last, the instant at which its END record has been sent, and its records. -/
  txK : Option Nat
  txUntil : Nat
  tx : List (List Word)
  /-- Identifiers and page lines changed since the last latched Escrow, and the tasks, delay lists and port delays as that
  one sent them. -/
  dirtyIds : List Nat
  dirtyLines : List (Nat × Nat)
  sentTasks : List (Nat × Nat × Word)
  sentLists : List (List Delay)
  sentPorts : List (List Nat × List Nat)
  /-- The Escrow latched last, the HEARTBEAT and the CONTROL frame sent last, as mirror frames, and the lane that is next in turn
  (R366, R367, R378). -/
  txFrames : List MirFrame
  hbTx : Option MirFrame
  ctlTx : Option MirFrame
  txTurn : Nat
  /-- Device time at which SEEKING was entered (R365), and at which a renewal was last heard. -/
  seekSince : Nat
  heardAt : Option Nat
  /-- The standby's timeline runs from heartbeats (R368). -/
  gridSet : Bool
  deriving DecidableEq, Repr

/-! ## Perturbation (16_progress_and_perturbation) -/

/-- PTB_ registers: as written, and as in force since the last clearing point (R392). -/
structure Ptb where
  evt : Word
  stretch : Word
  drop : Word
  bp : Word
  jitter : Word
  lease : Word
  skew : Word
  pdly : List Word
  stretchA : Word
  dropA : Word
  bpA : Word
  jitterA : Word
  leaseA : Word
  skewA : Word
  pdlyA : List Word
  /-- The 16-bit generator of the dispatch jitter. -/
  gen : BitVec 16
  /-- PTB_DROP, PTB_BP and PTB_JITTER have been written since the last clearing point. -/
  dropW : Bool
  bpW : Bool
  jitterW : Bool
  /-- A frame drop and a back-pressure episode act, or have run out and their end is not yet marked. -/
  dropActs : Bool
  bpActs : Bool
  /-- No decision cycle has come since PTB_BP took effect: CYCLES count from the next (R393). -/
  bpWait : Bool
  deriving DecidableEq, Repr

/-! ## Power-up, Strongroom, ageing, Daybook (17_power_up, 18_ageing_and_daybook) -/

/-- A slot of the holding block (R405). -/
structure HoldSlot where
  slot : SlotRec
  medium : Nat
  deriving DecidableEq, Repr

/-- An axis of the holding block (R405). -/
structure HoldAxis where
  axisRec : AxisRec
  blocks : List BlockRec
  cmd : List Word
  deriving DecidableEq, Repr

/-- The holding block in the boot flash (R405). -/
structure HoldBlock where
  format : Nat
  charterId : Word64
  slots : List HoldSlot
  axes : List HoldAxis
  /-- The SHA-256 digest stored with it. -/
  digest : List Byte
  deriving DecidableEq, Repr

/-- Verdict codes of BST_STAT.VERDICT and BST_WAVEn (R403). -/
inductive Verdict where
  | none | pass | fail | incomplete
  deriving DecidableEq, Repr

/-- BST_ registers and the self-test controller (R397 to R411). -/
structure Bst where
  /-- The device is held in reset until RESET_RELEASE (R433), and waits for PLL_LOCK until then. -/
  inReset : Bool
  wave : Nat
  running : Bool
  verdict : Verdict
  released : Bool
  cause : Nat
  evt : Word
  waves : List (Verdict × Nat)
  failSeg : Word
  ana : Word
  serFail : Word
  tSpread : Nat
  rsvRunning : Bool
  rsvReason : Nat
  rsvCycle : Word64
  /-- An issue frame or heartbeat has been heard in the 10 ms listen (R406). -/
  heard : Bool
  listening : Bool
  hold : Option HoldBlock
  /-- The Strongroom has checked the holding block since reset, or the firmware has written it (R405, R406). -/
  holdSeen : Bool
  /-- What each test segment of the wave that ended last kept: completion flag, pattern counter and signature (R403). -/
  segs : List SegResult
  /-- The ROM's expected pattern count and signature of each segment of each wave (R403). -/
  rom : List (List (Word × Word64))
  /-- The application image in the boot flash (R404). -/
  image : List Word
  /-- The holding block as the Charter that reduced service runs (R407). -/
  holdC : Option Charter
  /-- The firmware image in the boot flash carries a valid signature, as the Strongroom's check of it finds (R19). -/
  fwOk : Bool
  /-- SVC and APP0 to APP3 have left reset, and the link engines have started (R404). -/
  svcRun : Bool
  appRun : Bool
  linkRun : Bool
  deriving DecidableEq, Repr

/-- State of an OTP key slot (R71, SRM_SLOTS), with the hash it holds. -/
structure OtpSlot where
  st : Nat
  hash : List Byte
  deriving DecidableEq, Repr

/-- SRM_ registers and the Strongroom (R401, R402, R412, R413). -/
structure Srm where
  zeroised : Bool
  keysReady : Bool
  lockout : Bool
  jtagOpen : Bool
  authValid : Bool
  busy : Bool
  evt : Word
  result : Nat
  reqAddr : Word64
  authId : Word
  /-- AUTH_IDs of the test authorisations accepted since reset, the last one first: each holds until reset (R413). -/
  auths : List Word
  /-- What the key RAM holds: nothing but zeros, or working keys, free value n (R401, R402). -/
  keyRam : Option Nat
  /-- OTP: the four key slots, the device identity, and the hash of the Dalfold test key. -/
  slots : List OtpSlot
  devId : Word64
  vendorHash : List Byte
  /-- The request record under check. -/
  pendingReq : List Word
  deriving DecidableEq, Repr

/-- A re-tune under way (R419): the receiver, the present CTLE code, the trials made with their heights. -/
structure Retune where
  /-- Port 0 to 31, or 32 and 33 for the mirror lanes. -/
  rx : Nat
  base : Nat
  trials : List (Nat × Nat × Nat)
  deriving DecidableEq, Repr

/-- Step 1 of the margin plan under way (R417, R423): VCORE before the step in hand, VCORE and M before the first step, and what
the planner measures as M after this step and after further ones. -/
structure Raise where
  old : Nat
  v0 : Nat
  m0 : Int
  after : List Int
  deriving DecidableEq, Repr

/-- AGE_ registers and the planner (R415 to R421). -/
structure Age where
  derateDue : Bool
  warn : Bool
  exhausted : Bool
  pmbStopped : Bool
  evt : Word
  margin : Int
  vcore : Nat
  /-- DERATE_DAYS; reset 0xFFF. -/
  derateDays : Nat
  sens : Nat
  linkLow : Word
  mirLow : Word
  mirEye : List Word
  rpl : List Int
  ro : List Nat
  retunes : List Retune
  mirCtle : List Nat
  /-- Adaptation of each mirror lane is held: the equivalent of EQ_HOLD (R419). -/
  mirHold : List Bool
  /-- A step of VCORE waits for its PMBus verification (R417, R423). -/
  raising : Option Raise
  readReq : Bool
  restored : Bool
  /-- The planner derated, and software wrote TARGET 0 since (R429). -/
  overridden : Bool
  planned : Bool
  /-- Daily values: power-on hours and E in 0.01 ps, oldest first, and the calendar seconds of each (R421). -/
  daily : List (Nat × Int × Nat)
  deriving DecidableEq, Repr

/-- PMB_ registers (R422, R423). -/
structure Pmb where
  /-- PMB_CFG; reset 0x140. -/
  cfg : Word
  /-- PMB_VSET; reset 0x320. -/
  vset : Word
  vread : Word
  status : Word
  evt : Word
  /-- A VOUT_COMMAND sent and not yet verified. -/
  verify : Option Nat
  deriving DecidableEq, Repr

/-- A Daybook record (R424): TYPE in the order of the table *Daybook records*, its stamp and its content words. -/
structure DbkRec where
  type : Nat
  stamp : Nat
  content : List Word
  /-- The record is still open: the next of its kind takes its place. -/
  live : Bool
  deriving DecidableEq, Repr

/-- DBK_ registers and the Daybook (R424 to R428). -/
structure Dbk where
  ready : Bool
  busy : Bool
  evt : Word
  arg : Word
  dst : Word64
  dstLen : Word
  expLen : Word
  region : Word
  erases : Word
  /-- DBK_EPOCH_AO; always on (R425). -/
  epochAo : Nat
  /-- Power-on seconds. -/
  poh : Word64
  /-- Entries pending for the journal, and the journal. -/
  pending : List DbkRec
  journal : List DbkRec
  /-- The journalled epoch, VCORE setting and derate state; they outlast a reset (R418, R425, R34). -/
  epoch : Nat
  vcore : Option Nat
  derated : Bool
  brownOuts : Nat
  powerCycles : Nat
  /-- A snapshot under export. -/
  exporting : Option (List DbkRec)
  /-- 32 B entries appended to the journal so far, the number of the next one; the entries at which its newest two checkpoints
  began; and sectors erased so far (R426). -/
  seq : Nat
  ckptNew : Nat
  ckptOld : Nat
  erased : Nat
  /-- Seconds in each 5 °C bin, −40 °C first (R424). -/
  tjHist : List Nat
  deriving DecidableEq, Repr

/-! ## The machine -/

/-- Why a step stops with a fault. No rule of the CV2560 stops the device at a command: a fault of the device is a flag,
a counter, a record or a reset, each an effect on the state, so there is no reason to name here. -/
inductive Fault where
  deriving DecidableEq, Repr

/-- Why a command has no meaning. -/
inductive Refusal where
  /-- The row has no meaning in this model; raised by the dispatcher's own arms; safe. -/
  | notModelled (mnemonic : String)
  deriving DecidableEq, Repr

/-- The CV2560. -/
structure State where
  /-- Commands waiting, first in, first out. -/
  pending : List Instr
  /-- Value returned by the last read (R9 to R12, R288). -/
  readData : Word64
  /-- The model's own count of free values drawn; nothing of the device. -/
  freeCount : Nat
  /-- DRAM fitted, in MiB; fixed by the board (R444). -/
  dramMib : Nat
  /-- DRAM bytes outside the bank and Ledger regions, by address. -/
  dram : Mem 8
  glb : Glb
  clk : Clk
  tim : Tim
  cht : Cht
  cyc : Cyc
  /-- The axis store: 256 pages of 1,024 words (R97), word index axis × 1,024 + offset / 4. -/
  pages : Mem 32
  axes : List Axis
  /-- Code RAM, the same in every lane (R68), by instruction address. -/
  code : Mem 64
  lanes : List Lane
  teller : Teller
  ledger : Ledger
  arb : Arb
  ports : List Port
  stations : List Station
  dsc : Dsc
  io : Local
  acq : Acq
  par : Par
  ptb : Ptb
  bst : Bst
  srm : Srm
  age : Age
  pmb : Pmb
  dbk : Dbk
  deriving DecidableEq, Repr

/-! ## The machine right after reset

Every field has the value the register tables and the rules give it at device reset (R13, R398). Registers and hidden
state for which spec/ gives no reset value take the values the assumption log names; fused and flash content, which no
reset gives, is that of a blank part on a full board. -/

/-- Glb at reset. -/
def Glb.reset : Glb :=
  { accessErr := 0, accessAddr := 0, accessSrc := 0, temp := 0, scratch := 0, thermLow := false, errAt := 0, errBase := 0,
    errNew := 0, errCap := (0, 0), coreFault := List.replicate 5 none, hiLatch := [],
    loWritten := [] }

/-- Clk at reset: the root PLL has not yet locked (R399). -/
def Clk.reset : Clk :=
  { lock := false, holdover := false, refLost := false, derated := false, refOffs := 0, derate := 0, evt := 0,
    pending := none, relocking := false }

/-- Tim at reset, with the always-on registers at their value after loss of VBAK. -/
def Tim.reset : Tim :=
  { now := 0, edges := 0, slewAcc := 0, cclkPhase := 0, slew := 0, plant := 0, plantRate := 0, plantStep := none, plantStat := 0,
    calSec := 0, calSub := 0, calTrim := 0, calFrac := 0, trimAcc := 0, carryDue := false, calSet := none, calOk := false,
    capReq := false, capDev := 0, capPlant := 0, capSec := 0, capSub := 0, capDone := false, pfail := 0, vbak := true }

/-- Cht at reset: no Charter (R7, R73). -/
def Cht.reset : Cht :=
  { bankA := [], bankB := [], activeBank := false, active := none, staged := none, stage := .empty, stagedLoad := 0,
    stagedSafe := false, activeSafe := false, src := 0, srcLen := 0, swapAt := 0, errCode := 0, errDetail := 0,
    errOffs := 0, evt := 0, handover := 0, activeKey := 0, stagedKey := 0, armedLive := [], outgoing := none,
    pageWrites := [], placed := [], prepared := [], phase := .none, tS := 0,
    t0 := 0, keptWait := [], started := false }

/-- Cyc at reset: CYC_SLACK_MIN is 0xFFFF_FFFF. -/
def Cyc.reset : Cyc :=
  { service := 0, num := 0, numValid := false, k := 0, tk := 0, sampled := false, frozen := false, evt := 0,
    ovrTotal := 0, latePorts := 0, leadShort := 0, slackMin := 0xFFFFFFFF, axSel := 0, ovrAxis := 0, rxnAxis := 0 }

/-- Feedback state of a role whose next record is a first record (R243). -/
def FbRun.reset : FbRun :=
  { cLast := 0, first := true, rebind := false, count := false, w := 0, still := 0, standstill := false, invalid := 0,
    rem := 0, num := 1, den := 1 }

/-- Runner state of an axis that has run no job. -/
def AxisRun.reset : AxisRun :=
  { posCmd := 0, posFb := 0, posLoad := 0, wRef := 0, aRef := 0, en := false, source := .hold, prim := FbRun.reset,
    load := FbRun.reset, pulseLast := 0, pulseRem := 0, gearNum := 0, gearDen := 1, gearNumSeen := 0,
    gearDenSeen := 0, yf := 0, camM := 0, camExt := 0, camRaw := 0, camReady := false, camWm := 0, camEngage := 0,
    camStale := 0, masterLost := false,
    plan := none, profDone := false, profX := 0, profRev := false, profOver := false, feTimer := 0, feTrip := false,
    react := 0, cause := 0, stopDone := false, reactNew := false,
    rejoinClear := false, needOff := false, holdStart := false, hT := 0, hD := 0, hQ := 0, hand := .none, outMode := 0,
    tauOut := 0,
    vdOut := 0, vqOut := 0, q := 0, qLast := 0, level := 0, pendLevel := none, pulseInt := 0, pulseRaw := 0,
    zSeen := false, zPos := 0, stat := 0, ran := false }

/-- Axis at reset. -/
def Axis.reset : Axis :=
  { run := AxisRun.reset, ovrCount := 0, ovrConsec := 0, ovrCause := 0, inTime := false, began := false,
    bufStop := false, jobK := 0, jobDue := false, out0 := 0, out1 := 0, outOff := false, causes := [], cfg0 := 0x00640204,
    cfg1 := 0x00640204, ssi0 := 0x19, ssi1 := 0x19, cfgSt0 := 0x00640204, cfgSt1 := 0x00640204, ssiSt0 := 0x19,
    ssiSt1 := 0x19, stat0 := 0, stat1 := 0, chanSsi0 := none, chanSsi1 := none, chanRaw0 := none, chanRaw1 := none,
    chanCnt0 := 0, chanCnt1 := 0, chanHall0 := false, chanHall1 := false, chanGood0 := 0, chanGood1 := 0,
    chanFirst0 := true, chanFirst1 := true,
    badSeen0 := 0, badSeen1 := 0, hallSeen0 := 0, hallSeen1 := 0, dirSeen0 := 0,
    dirSeen1 := 0, zSeen0 := 0, zSeen1 := 0, travel := 0,
    reversals := 0, energised := 0, faults := List.replicate 7 0, dbkSerial := 0 }

/-- Lane at reset: waiting in TAKE, and every register 0. -/
def Lane.reset : Lane :=
  { x := List.replicate 8 0, y := List.replicate 16 0, n := List.replicate 16 0, e := List.replicate 8 0,
    p := List.replicate 8 0, ix := List.replicate 8 0, ox := List.replicate 8 0, iy := List.replicate 8 0,
    oy := List.replicate 8 0, a := List.replicate 4 0, bxd := 0, lflg := 0, pc := 0, ram := [], scratch := none,
    marks := [], rep := [],
    ret := [], post := [], state := .waiting, job := none, stall := none, got := none, fault := 0, faultPc := 0, faultTask := 0,
    arith := 0, jobs := 0, busy := 0, waitSince := 0, urgentUsed := 0 }

/-- Teller at reset. -/
def Teller.reset : Teller :=
  { tasks := [], ready := List.replicate 16 [], flows := [], raised := [], binds := [], oldBinds := [], gen := 0,
    lists := List.replicate 8 [], dueQ := [], laneEn := 0, evt := 0, err := 0, taskSel := 0, taskArg := 0, merged := 0,
    removed := 0, stopped := 0, latMax := 0, dlyTask := 0, dlyDue := 0, dlyPeriod := 0, ipend := List.replicate 5 0,
    ien := List.replicate 5 0, cbind := List.replicate 64 0 }

/-- Ledger at reset: not ready (R287). -/
def Ledger.reset : Ledger :=
  { mem := [], ready := false, clearing := false, pinLoading := false, base := 0, pins := [], lines := [], fills := [],
    wbuf := [],
    hits := 0, misses := 0, evt := 0, errId := 0, eccCorr := 0, bad := [] }

/-- One requester at reset: class normal, ALLOWANCE 64 (ARB_CLASSn 0x0040_0002). -/
def ArbReq.reset : ArbReq :=
  { cls := 2, allowance := 64, count := 0, masked := false, grants := 0, wait := 0, waitMax := 0,
    updAt := 0, updGrants := 0, updWait := 0, updMax := 0 }

/-- Arb at reset: window 4,096 FCLK cycles, urgent budget 64 beats (ARB_WINDOW 0x0080_1000). -/
def Arb.reset : Arb :=
  { reqs := [], owner := none, lastOwner := 0, parked := false, lastSealed := false, rr := List.replicate 5 0,
    per := List.replicate 24 ArbReq.reset, winStart := 0, winLen := 4096, urgentBeats := 64, pendingCls := none,
    evt := 0, preempts := 0 }

/-- Position at reset: ABSENT, station number 0x3FF. -/
def Position.reset : Position :=
  { st := .absent, reason := 0, station := none, vendor := 0, model := 0, serial := 0, caps := 0, desc := [],
    ask := none, noAnswer := 0, exchanges := 0, assign := false, assignAt := none, askSeq := none, effective := 0, attempts := 0, acked := false,
    sentAt := 0, ackedFor := none, blocked := false, cutUi := 0, tol := List.replicate 10 0,
    logged := List.replicate 10 none, degr := [], tolOf := none, ahead := false, refused := none }

/-- Station at reset. -/
def Station.reset : Station :=
  { present := false, ready := false, locked := false, holdOff := false, evtLate := false, stale := false,
    cutUi := 0, din := 0, serial := 0, enrolments := 0, violations := 0, lastLeave := 0, missing := 0,
    dout := 0, doutEn := 0, credit := 0, timed := [], params := [],
    holdFrom := none }

/-- Port at reset: link down, 1.25 Gbaud, TBP_EQ 0x0008_0806. -/
def Port.reset : Port :=
  { linkUp := false, rate := false, medium := false, sfpPresent := false, sfpLos := false, stations := 0, ctrl := 0,
    evt := 0, eq := 0x00080806, eye := 0, symErr := 0, crcErr := 0, lenErr := 0, missing := 0, launchUi := 0,
    rarrUi := 0, lenIssue := 0, lenReturn := 0, acyTx := 0, acyRx := 0, hop := List.replicate 16 0,
    cut := List.replicate 16 0, hopHist := List.replicate 16 [], exchHist := List.replicate 16 [], lineN := 0,
    lineUi := 0, grant := List.replicate 16 0, grantNext := 0,
    upReq := List.replicate 16 0, rlenHist := [], frame := none, txq := [], timedQ := [], rateCount := 0,
    rateTo := false, rateDue := false, retSlots := [], reported := [], returned := false, judged := false, stopped := false, launched := false,
    discDone := false, discCells := [], discHdr := [], seq := 0, pendingDisc := none,
    discLaunchUi := 0, discMsgs := [], found := 0, isolatePos := 0, noRoom := false, terminate := 0,
    tol := List.replicate 10 0, logged := List.replicate 10 none, babble := false, isolateK := 0,
    pos := List.replicate 16 Position.reset }

/-- Dsc at reset: discovery active; tolerances of the table *Violations* (R345). -/
def Dsc.reset : Dsc :=
  { ctrl := 1, sel := 0, evt := 0, ringHead := 0, ringSeq := 0, tol := [16, 4, 16, 2, 16, 16, 3, 64, 4, 8], parted := [], cmds := [] }

/-- A local feedback port at reset: FBK_PCFGn 0x0051_9020, FBnCLK high (R440). -/
def FbPort.reset : FbPort :=
  { cfg := 0x00519020, cfgSt := 0x00519020, count := 0, invalid := false, overrate := false, hallInvalid := false,
    ssiErr := false, dir := false, zSeen := false, zLatch := 0, tLast := 0, glitch := 0, levels := 0, pins := 0, edges := 0,
    interval := 0, dirAt := 0, hallGood := 0, dirN := 0, zN := 0, ssiPrev := none, ssiAbs := 0, ssiBad := false,
    ssiFirst := true, ssiAt := 0, badN := 0, hallN := 0, latBadN := 0, latHallN := 0,
    clkIdle := true, latCount := 0, latStat := 0, latZ := 0, latAge := 0, latInterval := 0, latDir := false,
    latDirN := 0, latZN := 0, latAbs := 0, latBad := false }

/-- A trigger input at reset: FBK_TCFGn 0x0000_0020. -/
def Trg.reset : Trg :=
  { cfg := 0x20, fired := false, level := false, armed := false, latchInvalid := false, time := 0, latch := 0,
    firings := 0, latFirings := 0 }

/-- A repeat output at reset: FBK_RCFGn 0x0001_0000, pins low. -/
def Fbo.reset : Fbo :=
  { cfg := 0x00010000, rem := 0, phase := 0, pins := 0 }

/-- A compare unit at reset. -/
def Cmp.reset : Cmp :=
  { cfg := 0, val := 0, step := 0, behind := false, fired := false, late := false, miss := false, level := false,
    time := 0, actAt := 0, checks := [] }

/-- A STEP/DIR pair at reset: both pins low. -/
def StepPair.reset : StepPair :=
  { acc := 0, inc := 0, en := false, lat := 0, due := [], step := false, dir := false, riseAt := 0, fallAt := 0,
    dirAt := 0, pulseNs := 0, setupNs := 0 }

/-- Local I/O at reset: GPIO not driven. -/
def Local.reset : Local :=
  { axSel := 0, fb := List.replicate 16 FbPort.reset, trg := List.replicate 16 Trg.reset,
    fbo := List.replicate 8 Fbo.reset, lFired := 0, sFired := 0, lBehind := 0, sBehind := 0,
    lcmp := List.replicate 8 Cmp.reset, scmp := List.replicate 32 Cmp.reset, cmpWrites := [], latTk := 0,
    step := List.replicate 16 StepPair.reset,
    gpioIn := 0, gpioLat := 0, gpioOutW := 0, gpioEnW := 0, gpioOutR := 0, gpioEnR := 0, gpioOut := 0, gpioEn := 0,
    ain := List.replicate 8 0, ainAt := List.replicate 8 none, ainLat := List.replicate 8 0, latStamp := 0 }

/-- An interval without a sample. -/
def AcqAcc.reset : AcqAcc := { fresh := false, minV := 0, maxV := 0 }

/-- An acquisition channel at reset. -/
def AcqChan.reset : AcqChan :=
  { cur := AcqAcc.reset, nxt := [], lastMin := 0, lastMax := 0, prev := none }

/-- Acq at reset: ACQ_POST 1, ACQ_BW 0x190, ACQ_TRIG 0x600. -/
def Acq.reset : Acq :=
  { state := .idle, trigValid := false, wrapped := false, reason := 0, evt := 0, base := 0, size := 0, prefill := 0,
    post := 1, ivl := 0, cLog := 0, fLog := 0, bw := 0x190, trig := 0x600, thr := 0, hyst := 0, calRef := 0, wptr := 0,
    tblock := 0, bseq := 0, dropped := 0, ttime := 0, tfrac := 0, tf := 0, tsamp := 0, fch := List.replicate 8 0,
    ch := List.replicate 64 0, skOff := List.replicate 72 0, skRes := List.replicate 72 0, upBase := 0, upSize := 0,
    upHead := 0, upTail := 0, upDrop := 0, blockN := 0, blockWords := [], blocksOut := [], written := 0, issued := 0, moved := 0,
    trigAt := none, placedAt := none, gap := 0, bytes := 0, bytesC := 0, bytesF := 0, cNext := [], fNext := [],
    cFirst := 0, fFirst := 0, fastAt := none, checkAt := none, chan := List.replicate 72 AcqChan.reset,
    primedUp := false, primedDown := false, calStart := 0, calRefT := none, calChT := none }

/-- Par at reset: role SINGLE; PAIRSEL floating selects the primary (R437). -/
def Par.reset : Par :=
  { role := .single, unit := false, mir := [false, false], link := false, sync := false, inhibit := false, timeLocked := false,
    evt := 0, cfg := 0, epoch := 0, highest := 0, renew := 0, escrow := 0, escrowValid := false, toffs := 0, terr := 0,
    mirDly := 0, syncSince := 0, mirErr := 0, lease := 0, leaseDue := none, holds := false, claimAt := none, epochBefore := 0, claim := 0,
    takeStep := .none, takeAt := 0, takeFrom := 0, yields := false, rxK := none, rxCount := 0, txK := none,
    txUntil := 0, tx := [], dirtyIds := [], dirtyLines := [], sentTasks := [], sentLists := [], sentPorts := [],
    txFrames := [], hbTx := none, ctlTx := none, txTurn := 0,
    seekSince := 0, heardAt := none, gridSet := false }

/-- Ptb at reset: nothing perturbed (R395). -/
def Ptb.reset : Ptb :=
  { evt := 0, stretch := 0, drop := 0, bp := 0, jitter := 0, lease := 0, skew := 0,
    pdly := List.replicate 32 0, stretchA := 0, dropA := 0, bpA := 0, jitterA := 0, leaseA := 0, skewA := 0,
    pdlyA := List.replicate 32 0, gen := 0, dropW := false, bpW := false, jitterW := false, dropActs := false,
    bpActs := false, bpWait := false }

/-- Bst at reset: CAUSE power-up, self-test not yet begun. -/
def Bst.reset : Bst :=
  { inReset := false, wave := 0, running := false, verdict := .none, released := false, cause := 0, evt := 0,
    waves := List.replicate 6 (.none, 0), failSeg := 0, ana := 0, serFail := 0, tSpread := 0, rsvRunning := false,
    rsvReason := 0, rsvCycle := 0, heard := false, listening := false, hold := none, holdSeen := false, segs := [],
    rom := [], image := [], holdC := none, svcRun := false,
    appRun := false,
    linkRun := false, fwOk := true }

/-- Srm at reset, on a part whose key slots are blank. -/
def Srm.reset : Srm :=
  { zeroised := false, keysReady := false, lockout := false, jtagOpen := false, authValid := false, busy := false,
    evt := 0, result := 0, reqAddr := 0, authId := 0, auths := [], keyRam := none,
    slots := List.replicate 4 { st := 0, hash := List.replicate 32 0 }, devId := 0, vendorHash := List.replicate 32 0,
    pendingReq := [] }

/-- Age at reset: DERATE_DAYS none. -/
def Age.reset : Age :=
  { derateDue := false, warn := false, exhausted := false, pmbStopped := false, evt := 0, margin := 0, vcore := 0,
    derateDays := 0xFFF, sens := 0, linkLow := 0, mirLow := 0, mirEye := [0, 0], rpl := List.replicate 21 0,
    ro := List.replicate 48 0, retunes := [], mirCtle := [6, 6], mirHold := [false, false], raising := none,
    readReq := false, restored := false,
    overridden := false, planned := false, daily := [] }

/-- Pmb at reset. -/
def Pmb.reset : Pmb :=
  { cfg := 0x140, vset := 0x320, vread := 0, status := 0, evt := 0, verify := none }

/-- Dbk at reset, with an empty journal. -/
def Dbk.reset : Dbk :=
  { ready := false, busy := false, evt := 0, arg := 0, dst := 0, dstLen := 0, expLen := 0, region := 0, erases := 0,
    epochAo := 0, poh := 0, pending := [], journal := [], epoch := 0, vcore := none, derated := false, brownOuts := 0,
    powerCycles := 0, exporting := none, seq := 0, ckptNew := 0, ckptOld := 0, erased := 0, tjHist := List.replicate 38 0 }

/-- The CV2560 right after a device reset at first power-up, before the root PLL locks. Log 10 (DESIGN CHOICE). -/
def State.reset : State :=
  { pending := [], readData := 0, freeCount := 0, dramMib := 16384, dram := [], glb := Glb.reset, clk := Clk.reset,
    tim := Tim.reset, cht := Cht.reset, cyc := Cyc.reset, pages := [], axes := List.replicate 256 Axis.reset,
    code := [], lanes := List.replicate 16 Lane.reset, teller := Teller.reset, ledger := Ledger.reset,
    arb := Arb.reset, ports := List.replicate 32 Port.reset, stations := List.replicate 512 Station.reset,
    dsc := Dsc.reset, io := Local.reset, acq := Acq.reset, par := Par.reset, ptb := Ptb.reset, bst := Bst.reset,
    srm := Srm.reset, age := Age.reset, pmb := Pmb.reset, dbk := Dbk.reset }

end Sys2Proof.Machine
end

