-- ==== Sys2Proof/Machine/Ops.lean ====
section
/-!
DEFINITION. Named operations shared by the meanings: fields of words, exact rounding, sparse memory, lists of units, and
the accesses that several blocks make to State.
-/
namespace Sys2Proof.Machine
open Sys2Proof

/-! ## Fields, signs and rounding -/

/-- Bits [hi:lo] of a word as a number. -/
def field {n : Nat} (w : BitVec n) (hi lo : Nat) : Nat := (w.toNat >>> lo) % 2 ^ (hi + 1 - lo)

/-- Bit i of a word. -/
def bit {n : Nat} (w : BitVec n) (i : Nat) : Bool := w.getLsbD i

/-- A Bool as a bit of weight 2^i. -/
def flagAt (b : Bool) (i : Nat) : Nat := if b then 2 ^ i else 0

/-- A word with bit i set. -/
def setBit {n : Nat} (w : BitVec n) (i : Nat) : BitVec n := w ||| BitVec.ofNat n (2 ^ i)

/-- A word with bit i clear. -/
def clearBit {n : Nat} (w : BitVec n) (i : Nat) : BitVec n := w &&& ~~~(BitVec.ofNat n (2 ^ i))

/-- A write to a W1C field set: ones of the written value that lie in `mask` clear (R12). -/
def w1c {n : Nat} (old val mask : BitVec n) : BitVec n := old &&& ~~~(val &&& mask)

/-- A number read as two's complement of `bits` bits. -/
def signed (bits v : Nat) : Int :=
  let m := v % 2 ^ bits
  if m < 2 ^ (bits - 1) then (m : Int) else (m : Int) - 2 ^ bits

/-- The low `bits` bits of an integer. -/
def lowBits (bits : Nat) (v : Int) : Nat := (v % 2 ^ bits).toNat

/-- v held within lo to hi. -/
def clamp (lo hi v : Int) : Int := if v < lo then lo else if hi < v then hi else v

/-- The integer nearest to n / d, a value halfway between two integers going to the even one: crnd of R115. -/
def crndDiv (n : Int) (d : Nat) : Int :=
  let q := n / (d : Int)
  let r := n % (d : Int)
  if 2 * r > d then q + 1 else if 2 * r = d then (if q % 2 = 0 then q else q + 1) else q

/-- crnd (v × 2^s), for any shift s. -/
def crndShift (v : Int) (s : Int) : Int :=
  if 0 ≤ s then v * 2 ^ s.toNat else crndDiv v (2 ^ (-s).toNat)

/-- The floor of v × 2^s. -/
def floorShift (v : Int) (s : Int) : Int :=
  if 0 ≤ s then v * 2 ^ s.toNat else v / (2 ^ (-s).toNat : Int)

/-- The bit length of a natural number. -/
def bitLen (v : Nat) : Nat := if v = 0 then 0 else Nat.log2 v + 1

/-! ## Sparse memory -/

/-- The cell at a key; 0 where none is listed. Log 9 (DESIGN CHOICE). -/
def memRead {w : Nat} : Mem w → Nat → BitVec w
  | [], _ => 0
  | (b, x) :: t, a => if a = b then x else memRead t a

/-- The memory with one cell written, in canonical form. Log 9 (DESIGN CHOICE). -/
def memWrite {w : Nat} : Mem w → Nat → BitVec w → Mem w
  | [], a, v => if v = 0 then [] else [(a, v)]
  | (b, x) :: t, a, v =>
    if a < b then (if v = 0 then (b, x) :: t else (a, v) :: (b, x) :: t)
    else if a = b then (if v = 0 then t else (a, v) :: t)
    else (b, x) :: memWrite t a v

/-- Every key of a memory is above k, keys rise strictly, and no cell holds 0. -/
def memAbove {w : Nat} (k : Nat) : Mem w → Bool
  | [] => true
  | (b, x) :: t => decide (k < b) && decide (x ≠ 0) && memAbove b t

/-- The canonical form of a memory: keys strictly rising, no cell equal to 0. -/
def memWf {w : Nat} : Mem w → Bool
  | [] => true
  | (b, x) :: t => decide (x ≠ 0) && memAbove b t

/-- Consecutive cells written from a key. -/
def memWriteList {w : Nat} (m : Mem w) (a : Nat) : List (BitVec w) → Mem w
  | [] => m
  | v :: vs => memWriteList (memWrite m a v) (a + 1) vs

/-- n consecutive cells from a key. -/
def memReadList {w : Nat} (m : Mem w) (a : Nat) : Nat → List (BitVec w)
  | 0 => []
  | n + 1 => memRead m a :: memReadList m (a + 1) n

/-! ## Lists of units -/

/-- The unit at an index changed by f; nothing where there is none. -/
def setAt {α : Type} (l : List α) (i : Nat) (f : α → α) : List α := l.modify i f

/-- The unit at an index set. -/
def putAt {α : Type} (l : List α) (i : Nat) (v : α) : List α := l.modify i (fun _ => v)

/-- A function applied with each of the numbers 0 to n − 1 in turn. -/
def forRange {σ : Type} : Nat → (Nat → σ → σ) → σ → σ
  | 0, _, s => s
  | n + 1, f, s => f n (forRange n f s)

/-- A function applied with each member of a list in turn. -/
def forEach {α σ : Type} : List α → (α → σ → σ) → σ → σ
  | [], _, s => s
  | a :: t, f, s => forEach t f (f a s)

/-! ## Blocks of State -/

/-- Lane l of the state. -/
def State.lane (s : State) (l : Nat) : Lane := s.lanes.getD l Lane.reset

/-- One lane changed. -/
def State.mapLane (s : State) (l : Nat) (f : Lane → Lane) : State := { s with lanes := setAt s.lanes l f }

/-- Axis a of the state. -/
def State.axis (s : State) (a : Nat) : Axis := s.axes.getD a Axis.reset

/-- One axis changed. -/
def State.mapAxis (s : State) (a : Nat) (f : Axis → Axis) : State := { s with axes := setAt s.axes a f }

/-- Port p of the state. -/
def State.port (s : State) (p : Nat) : Port := s.ports.getD p Port.reset

/-- One port changed. -/
def State.mapPort (s : State) (p : Nat) (f : Port → Port) : State := { s with ports := setAt s.ports p f }

/-- Station n of the state. -/
def State.station (s : State) (n : Nat) : Station := s.stations.getD n Station.reset

/-- One station changed. -/
def State.mapStation (s : State) (n : Nat) (f : Station → Station) : State :=
  { s with stations := setAt s.stations n f }

/-- Position n, 1 to 16, of a port. -/
def Port.at (p : Port) (n : Nat) : Position := p.pos.getD (n - 1) Position.reset

/-- One position, 1 to 16, of a port changed. -/
def State.mapPos (s : State) (p n : Nat) (f : Position → Position) : State :=
  s.mapPort p fun q => { q with pos := setAt q.pos (n - 1) f }

/-- The Glb block changed. -/
def State.mapGlb (s : State) (f : Glb → Glb) : State := { s with glb := f s.glb }
/-- The Clk block changed. -/
def State.mapClk (s : State) (f : Clk → Clk) : State := { s with clk := f s.clk }
/-- The Tim block changed. -/
def State.mapTim (s : State) (f : Tim → Tim) : State := { s with tim := f s.tim }
/-- The Cht block changed. -/
def State.mapCht (s : State) (f : Cht → Cht) : State := { s with cht := f s.cht }
/-- The Cyc block changed. -/
def State.mapCyc (s : State) (f : Cyc → Cyc) : State := { s with cyc := f s.cyc }
/-- The Teller changed. -/
def State.mapTeller (s : State) (f : Teller → Teller) : State := { s with teller := f s.teller }
/-- The Ledger changed. -/
def State.mapLedger (s : State) (f : Ledger → Ledger) : State := { s with ledger := f s.ledger }
/-- The arbiter changed. -/
def State.mapArb (s : State) (f : Arb → Arb) : State := { s with arb := f s.arb }
/-- The Dsc block changed. -/
def State.mapDsc (s : State) (f : Dsc → Dsc) : State := { s with dsc := f s.dsc }
/-- The local I/O changed. -/
def State.mapIo (s : State) (f : Local → Local) : State := { s with io := f s.io }
/-- The acquisition engine changed. -/
def State.mapAcq (s : State) (f : Acq → Acq) : State := { s with acq := f s.acq }
/-- The pair manager changed. -/
def State.mapPar (s : State) (f : Par → Par) : State := { s with par := f s.par }
/-- The perturbation block changed. -/
def State.mapPtb (s : State) (f : Ptb → Ptb) : State := { s with ptb := f s.ptb }
/-- The self-test controller changed. -/
def State.mapBst (s : State) (f : Bst → Bst) : State := { s with bst := f s.bst }
/-- The Strongroom changed. -/
def State.mapSrm (s : State) (f : Srm → Srm) : State := { s with srm := f s.srm }
/-- The ageing planner changed. -/
def State.mapAge (s : State) (f : Age → Age) : State := { s with age := f s.age }
/-- The PMBus controller changed. -/
def State.mapPmb (s : State) (f : Pmb → Pmb) : State := { s with pmb := f s.pmb }
/-- The Daybook changed. -/
def State.mapDbk (s : State) (f : Dbk → Dbk) : State := { s with dbk := f s.dbk }

/-- The members of a list with their places. -/
def indexed {α : Type} (l : List α) : List (Nat × α) := (List.range l.length).zip l

/-! ## Free values -/

/-- The next value that spec/ leaves open. Log 4 (DESIGN CHOICE). -/
def State.free (s : State) : Word64 := Config.freeValue s.freeCount

/-- The count of free values advanced by n. -/
def State.drawn (s : State) (n : Nat) : State := { s with freeCount := s.freeCount + n }

/-! ## Time (R37, R88) -/

/-- The timescale of every stamp: pair time where the active Charter has PAIR set, device time otherwise (R37). -/
def State.time (s : State) : Nat :=
  match s.cht.active with
  | some c => if c.pair then ((s.tim.now : Int) + s.par.toffs).toNat else s.tim.now
  | none => s.tim.now

/-- Period of a rate code, ns (R62). -/
def ratePeriod (code : Nat) : Nat :=
  match code with
  | 0 => 15625
  | 1 => 31250
  | 2 => 62500
  | _ => 125000

/-- Rate divisor of a rate code against the base rate (R62). -/
def rateDiv (base code : Nat) : Nat := 2 ^ (code - base)

/-- L_max: the largest ISSUE_LEAD, at least 1,000 ns (R89). -/
def Charter.lMax (c : Charter) : Nat := c.ports.foldl (fun m p => max m p.issueLead) 1000

/-- The base period T of a Charter, ns. -/
def Charter.period (c : Charter) : Nat := ratePeriod c.baseRate

/-- The clearing-point offset C = T − L_max (R89). -/
def Charter.cpOffs (c : Charter) : Nat := c.period - c.lMax

/-- The AXIS record of an axis. -/
def Charter.axis? (c : Charter) (a : Nat) : Option AxisRec := c.axes.find? (fun r => r.axis == a)

/-- The CHAIN record of an axis. -/
def Charter.chain? (c : Charter) (a : Nat) : Option ChainRec := c.chains.find? (fun r => r.axis == a)

/-- The SLOT record of a station number. -/
def Charter.slot? (c : Charter) (n : Nat) : Option SlotRec := c.slots.find? (fun r => r.station == n)

/-- The PORT record of a port. -/
def Charter.port? (c : Charter) (p : Nat) : Option PortRec := c.ports.find? (fun r => r.port == p)

/-- The cycle task of an axis. -/
def Charter.axisTask? (c : Charter) (a : Nat) : Option TaskRec :=
  c.tasks.find? (fun r => r.axisTask && r.flow == a)

/-- The rate divisor of an axis. -/
def Charter.axisDiv (c : Charter) (r : AxisRec) : Nat := rateDiv c.baseRate r.rate

/-- Full service runs (CYC_STAT.SERVICE 2). -/
def State.fullService (s : State) : Bool := s.cyc.service == 2

/-- Reduced service runs (CYC_STAT.SERVICE 1). -/
def State.reduced (s : State) : Bool := s.cyc.service == 1

/-- A local target or feedback word: LOCAL [31]. -/
def isLocal (w : Word) : Bool := bit w 31

/-- The Charter that the cycle runs under: the holding Charter in reduced service, the active one otherwise (R407). -/
def State.charter (s : State) : Option Charter := if s.cyc.service == 1 then s.bst.holdC else s.cht.active

/-- The base period in force, ns: 250,000 in reduced service (R407). -/
def State.period (s : State) : Nat :=
  if s.cyc.service == 1 then 250000 else match s.cht.active with
    | some c => c.period
    | none => 0

/-- The clearing-point offset in force, ns. -/
def State.cpOffs (s : State) : Nat :=
  if s.cyc.service == 1 then 190000 else match s.cht.active with
    | some c => c.cpOffs
    | none => 0

/-- The deadline offset in force, ns (R89, R407). -/
def State.dlOffs (s : State) : Nat := s.cpOffs - 1000

/-! ## Access errors (R9, R10, R12, R453) -/

/-- The SRC code of a source (GLB_ACCESS_SRC). -/
def srcCode : Source → Nat
  | .app0 => 0
  | .app1 => 1
  | .app2 => 2
  | .app3 => 3
  | .svc => 4
  | .host => 5
  | .linkEngine => 6

/-- The SIZE code of a width. -/
def widthCode : Width → Nat
  | .w8 => 0
  | .w16 => 1
  | .w32 => 2
  | .w64 => 3

/-- The PCLK cycle of the present instant: root/40, eight TCLK edges (R29). -/
def State.pclk (s : State) : Nat := s.tim.edges / 8

/-- The records of access errors in a PCLK cycle: those of an earlier cycle are over. Log 117 (DEDUCED). -/
def Glb.inCycle (g : Glb) (cyc : Nat) : Glb :=
  if g.errAt = cyc then g else { g with errAt := cyc, errBase := g.accessErr, errNew := 0 }

/-- GLB_ACCESS_SRC of an error: SRC, WRITE, SIZE, FLAG and VALID. -/
def accessWord (src : Nat) (write : Bool) (size flag : Nat) : Word :=
  BitVec.ofNat 32 (src + flagAt write 3 + size * 16 + flag * 256 + 2 ^ 31)

/-- An access error raised in a PCLK cycle: its flag is set, and the address and source are captured where no flag was set before
that cycle; of the errors of one cycle, that of the lowest SRC (R453). Log 117 (DEDUCED). -/
def Glb.errorBy (g0 : Glb) (cyc flag : Nat) (word : Word) (addr : Nat) : Glb :=
  let g := g0.inCycle cyc
  let best := if g.errNew = 0 ∨ field word 2 0 < field g.errCap.2 2 0 then (BitVec.ofNat 64 addr, word) else g.errCap
  { g with
    accessErr := setBit g.accessErr flag, errNew := setBit g.errNew flag, errCap := best
    accessAddr := if g.errBase = 0 then best.1 else g.accessAddr
    accessSrc := if g.errBase = 0 then best.2 else g.accessSrc }

/-- An access error of a source. -/
def Glb.error (g : Glb) (cyc flag : Nat) (src : Source) (write : Bool) (width : Width) (addr : Nat) : Glb :=
  g.errorBy cyc flag (accessWord (srcCode src) write (widthCode width) flag) addr

/-- Flags of GLB_ACCESS_ERR cleared by the bits written, in a PCLK cycle: those that the cycle sets stay set (R12). Where none is left
of the others the capture is released, and an error of the cycle is captured (R453). -/
def Glb.errClear (g0 : Glb) (cyc : Nat) (v : Word) : Glb :=
  let g := g0.inCycle cyc
  let base := w1c g.errBase v 7
  { g with
    accessErr := base ||| g.errNew, errBase := base
    accessAddr := if base = 0 ∧ g.errNew ≠ 0 then g.errCap.1 else g.accessAddr
    accessSrc := if base = 0 then (if g.errNew = 0 then clearBit g.accessSrc 31 else g.errCap.2) else g.accessSrc }

/-- The access-fault exception of a load or store of a core outside every region (R451). -/
def Glb.coreAccess (g : Glb) (src : Source) (write : Bool) (addr : Nat) : Glb :=
  if srcCode src < 5 then { g with coreFault := putAt g.coreFault (srcCode src) (some (write, addr)) } else g

/-- GLB_ACCESS_ERR.WIDTH raised. -/
def State.errWidth (s : State) (src : Source) (write : Bool) (width : Width) (addr : Nat) : State :=
  s.mapGlb fun g => g.error s.pclk 0 src write width addr

/-- GLB_ACCESS_ERR.UNMAPPED raised. -/
def State.errUnmapped (s : State) (src : Source) (write : Bool) (width : Width) (addr : Nat) : State :=
  s.mapGlb fun g => g.error s.pclk 1 src write width addr

/-- GLB_ACCESS_ERR.RWS_LOCKED raised. -/
def State.errLocked (s : State) (src : Source) (addr : Nat) : State :=
  s.mapGlb fun g => g.error s.pclk 2 src true .w32 addr

/-! ## Register pairs (R11) -/

/-- A _LO register written: its value is kept until _HI is written (R11). -/
def State.stageLo (s : State) (addr : Nat) (v : Word) : State :=
  s.mapGlb fun g => { g with loWritten := (addr, v) :: g.loWritten.filter (fun p => p.1 != addr) }

/-- The last value written to a _LO register (R11). -/
def State.loOf (s : State) (addr : Nat) : Word :=
  match s.glb.loWritten.find? (fun p => p.1 == addr) with
  | some p => p.2
  | none => 0

/-- A _HI register written with its value of _LO: the pair as one value (R11). -/
def State.pairOf (s : State) (loAddr : Nat) (hi : Word) : Word64 := hi ++ s.loOf loAddr

/-! ## Axis pages (R97, R98) -/

/-- Key of a page word: 1,024 words a page. -/
def pageKey (axis off : Nat) : Nat := axis * 1024 + off / 4

/-- The word of an axis page at a byte offset. -/
def State.page (s : State) (axis off : Nat) : Word := memRead s.pages (pageKey axis off)

/-- A word of an axis page written by the cycle path. -/
def State.setPage (s : State) (axis off : Nat) (v : Word) : State :=
  { s with pages := memWrite s.pages (pageKey axis off) v }

/-- Consecutive words of an axis page written from a byte offset. -/
def State.setPageWords (s : State) (axis off : Nat) (vs : List Word) : State :=
  { s with pages := memWriteList s.pages (pageKey axis off) vs }

/-- The words of a whole page. -/
def State.pageWords (s : State) (axis : Nat) : List Word := memReadList s.pages (pageKey axis 0) 1024

/-! ## DRAM (R8, R72, R290) -/

/-- Bytes that requesters reach: within the DRAM fitted, outside the bank region, and outside the Ledger region once it is
placed (R72, R290, R355). -/
def State.dramOk (s : State) (a n : Nat) : Bool :=
  decide (0x801000000 ≤ a) && decide (a + n ≤ 0x800000000 + s.dramMib * 2 ^ 20)
    && (!s.cht.started || decide (a + n ≤ s.ledger.base.toNat) || decide (s.ledger.base.toNat + 0x10000000 ≤ a))

/-- Bytes that lie in the Ledger region in part or whole, once it is placed (R290). -/
def State.inLedger (s : State) (a n : Nat) : Bool :=
  s.cht.started && decide (s.ledger.base.toNat < a + n) && decide (a < s.ledger.base.toNat + 0x10000000)

/-- The byte address lies in the bank region, which only the Charter block and the Strongroom reach (R72). -/
def inBanks (a : Nat) : Bool := decide (0x800000000 ≤ a) && decide (a < 0x801000000)

/-- The little-endian word at a byte address (R8). -/
def State.dramWord (s : State) (a : Nat) : Word :=
  memRead s.dram (a + 3) ++ memRead s.dram (a + 2) ++ memRead s.dram (a + 1) ++ memRead s.dram a

/-- Bytes of a word, least significant first. -/
def leBytes (w : Word) : List Byte := [w.extractLsb' 0 8, w.extractLsb' 8 8, w.extractLsb' 16 8, w.extractLsb' 24 8]

/-- Words written from a byte address. -/
def State.dramPut (s : State) (a : Nat) (ws : List Word) : State :=
  { s with dram := memWriteList s.dram a (ws.flatMap leBytes) }

/-- Low and high word of a 64-bit number (R8). -/
def twoWords (v : Nat) : List Word := [BitVec.ofNat 32 v, BitVec.ofNat 32 (v / 2 ^ 32)]

/-! ## Events (R263) -/

/-- A unit of a pair without a Warrant in force, or one that yields it from the cycle in hand on: it runs no jobs, and its
Teller sets no flag (R368, R376, R378). Log 49 (DEDUCED). -/
def Par.passive (p : Par) (k : Nat) : Bool :=
  p.role == .standby || p.role == .seeking || p.role == .isolated || (p.yields && decide (p.takeAt ≤ k))

/-- The unit runs no jobs. -/
def State.passive (s : State) : Bool := s.par.passive s.cyc.k

/-- An event raised towards the Teller. The cycle block of a standby raises none (R368). -/
def State.raise (s : State) (kind index : Nat) (k : Nat := 0) : State :=
  if s.par.role == .standby && (kind == 1 || kind == 2) then s
  else s.mapTeller fun t =>
    { t with raised := t.raised ++ [{ kind := kind, index := index, k := k, gen := t.gen }] }

end Sys2Proof.Machine
end

