-- ==== Sys2Proof/Machine/Flags.lean ====
section
/-!
DEFINITION. The arithmetic of the lanes that sets flags: rnd32, rsc, ex, the shifts of SHA, Q64.32 sums (R114 to R128).
-/
namespace Sys2Proof.Machine
open Sys2Proof

/-- The flags one operation raises; each is sticky in LFLG (R107). -/
structure LFlags where
  sat : Bool
  ovf : Bool
  unf : Bool
  exp : Bool
  deriving DecidableEq, Repr

/-- No flag. -/
def LFlags.none : LFlags := { sat := false, ovf := false, unf := false, exp := false }

/-- The flags of two operations. -/
def LFlags.or (a b : LFlags) : LFlags :=
  { sat := a.sat || b.sat, ovf := a.ovf || b.ovf, unf := a.unf || b.unf, exp := a.exp || b.exp }

/-- LFLG with the flags of an operation: [0] SAT, [1] OVF, [2] UNF, [3] EXP. -/
def LFlags.into (f : LFlags) (w : Word) : Word :=
  w ||| BitVec.ofNat 32 (flagAt f.sat 0 + flagAt f.ovf 1 + flagAt f.unf 2 + flagAt f.exp 3)

/-- The largest saturated mantissa, 2^31 − 1. -/
def mMax : Int := 2147483647

/-- crnd (a × 2^(s−31)) where the shift has no bound: for an accumulator of at most 80 bits a shift below −80 leaves 0,
and a shift above 64 only enlarges what is already past every limit by a multiple of 2^32. -/
def rndShift (a s : Int) : Int :=
  if s < -80 then 0 else if 80 < s then a * 2 ^ 64 else crndShift a (s - 31)

/-- rnd32 (A, s) of R116. -/
def rnd32 (a s : Int) (sat : Bool) : Int × LFlags :=
  let r := rndShift a s
  if sat then
    if mMax < r then (mMax, { LFlags.none with sat := true })
    else if r < -mMax then (-mMax, { LFlags.none with sat := true })
    else (r, LFlags.none)
  else if mMax < r ∨ r < -2147483648 then (signed 32 (lowBits 32 r), { LFlags.none with ovf := true })
  else (r, LFlags.none)

/-- rsc of R118: 31 for 0, 0 for −2^31. -/
def rsc (m : Int) : Nat := if m = 0 then 31 else 31 - bitLen m.natAbs

/-- ex (A) of R119: 127 for 0, else 62 less the bit length of the magnitude. -/
def exOf (a : Int) : Int := if a = 0 then 127 else 62 - (bitLen a.natAbs : Int)

/-- SHA of R117: a shift down truncates towards minus infinity; a shift up keeps the low 80 bits and sets OVF where a bit
is lost. -/
def shaOf (a s : Int) : Int × LFlags :=
  let r := floorShift a s
  let k := signed 80 (lowBits 80 r)
  (k, { LFlags.none with ovf := k != r })

/-- Sum or difference of two Q64.32 positions modulo 2^96, OVF on signed overflow (R125). -/
def posAdd (a b : Pos) (sub : Bool) : Pos × LFlags :=
  let e := if sub then a.toInt - b.toInt else a.toInt + b.toInt
  let r := BitVec.ofInt 96 e
  (r, { LFlags.none with ovf := r.toInt != e })

/-- PEXT of R126: the signed 32-bit difference of two counter readings added to the integer part. -/
def posExt (p : Pos) (raw last : Word) : Pos :=
  p + BitVec.ofInt 96 ((raw - last).toInt * 2 ^ 32)

/-- PBF of R127: the difference in 2^−32 counts, saturated to ±(2^79 − 1). -/
def posDiff (a b : Pos) : Int × LFlags :=
  let e := a.toInt - b.toInt
  let m : Int := 2 ^ 79 - 1
  (clamp (-m) m e, { LFlags.none with sat := decide (m < e ∨ e < -m) })

/-- PACC of R128: m × 2^(e−31) counts added, the sum rounded by crnd to 2^−32 count, modulo 2^96. An exponent above 96
adds a multiple of 2^96, and one below −160 less than half of 2^−32 count. -/
def posAcc (p : Pos) (m e : Int) : Pos :=
  if 96 < e then p
  else if e < -160 then p
  else if 0 ≤ e + 1 then p + BitVec.ofInt 96 (m * 2 ^ (e + 1).toNat)
  else
    let d := (-(e + 1)).toNat
    BitVec.ofInt 96 (crndDiv (p.toInt * 2 ^ d + m) (2 ^ d))

/-- ADDE: a sum held to −128 to 127, EXP where it is held. -/
def expAdd (a b : Int) : Int × LFlags :=
  let e := a + b
  (clamp (-128) 127 e, { LFlags.none with exp := decide (e < -128 ∨ 127 < e) })

end Sys2Proof.Machine
end

