-- ==== Sys2Proof/Machine/Operands.lean ====
section
/-!
DEFINITION. The operand forms of the lanes: register codes (R107), data RAM (R109 to R113), parallel moves (R129, R130,
R133), second operands (R134), conditions (R136) and the flow of instructions through repeats (R131, R132).
-/
namespace Sys2Proof.Machine
open Sys2Proof

/-- Why an instruction ends its job: a bit of LNE_FAULT (R142), or a full commit buffer (R113). -/
inductive LaneStop where
  | fault (bit : Nat)
  | buffer
  deriving DecidableEq, Repr

/-- LNE_FAULT bits. -/
def fIllegal : Nat := 0
def fCallOverflow : Nat := 1
def fRepOverflow : Nat := 2
def fRepUnbalanced : Nat := 3
def fTableWrite : Nat := 4
def fSignalInvalid : Nat := 5
def fPriv : Nat := 6

/-- What an instruction does to its lane. -/
abbrev LaneRes (α : Type) := Except LaneStop α

/-- ILLEGAL. -/
def illegal {α : Type} : LaneRes α := .error (.fault fIllegal)

/-! ## Registers (R107) -/

/-- A register named by its 7-bit code. -/
inductive Reg where
  | x (i : Nat)
  | y (i : Nat)
  | n (i : Nat)
  | e (i : Nat)
  | p (i : Nat)
  | ix (i : Nat)
  | ox (i : Nat)
  | iy (i : Nat)
  | oy (i : Nat)
  | a (i : Nat)
  | bxd
  | lflg
  deriving DecidableEq, Repr

/-- The register of a code; none for a reserved code. -/
def regOf (c : Nat) : Option Reg :=
  if c < 0x08 then some (.x c)
  else if c < 0x18 then some (.y (c - 0x08))
  else if c < 0x28 then some (.n (c - 0x18))
  else if c < 0x30 then some (.e (c - 0x28))
  else if c < 0x38 then some (.p (c - 0x30))
  else if c < 0x40 then some (.ix (c - 0x38))
  else if c < 0x48 then some (.ox (c - 0x40))
  else if c < 0x50 then some (.iy (c - 0x48))
  else if c < 0x58 then some (.oy (c - 0x50))
  else if c < 0x5C then some (.a (c - 0x58))
  else if c = 0x5C then some .bxd
  else if c = 0x5D then some .lflg
  else none

/-- The register of a code, ILLEGAL for a reserved one. -/
def regAt (c : Nat) : LaneRes Reg :=
  match regOf c with
  | some r => .ok r
  | none => illegal

/-- Accumulator i as a signed integer. -/
def Lane.acc (l : Lane) (i : Nat) : Int := (l.a.getD i 0).toInt

/-- The value of a register: index registers and BXD are unsigned, the rest signed. -/
def Lane.get (l : Lane) : Reg → Int
  | .x i => (l.x.getD i 0).toInt
  | .y i => (l.y.getD i 0).toInt
  | .n i => (l.n.getD i 0).toInt
  | .e i => (l.e.getD i 0).toInt
  | .p i => (l.p.getD i 0).toInt
  | .ix i => ((l.ix.getD i 0).toNat : Int)
  | .ox i => (l.ox.getD i 0).toInt
  | .iy i => ((l.iy.getD i 0).toNat : Int)
  | .oy i => (l.oy.getD i 0).toInt
  | .a i => (l.a.getD i 0).toInt
  | .bxd => (l.bxd : Int)
  | .lflg => (l.lflg.toNat : Int)

/-- A register written with the low bits of a value, as many as it has; reserved bits of LFLG stay 0. -/
def Lane.set (l : Lane) (r : Reg) (v : Int) : Lane :=
  match r with
  | .x i => { l with x := putAt l.x i (BitVec.ofInt 32 v) }
  | .y i => { l with y := putAt l.y i (BitVec.ofInt 32 v) }
  | .n i => { l with n := putAt l.n i (BitVec.ofInt 32 v) }
  | .e i => { l with e := putAt l.e i (BitVec.ofInt 32 v) }
  | .p i => { l with p := putAt l.p i (BitVec.ofInt 96 v) }
  | .ix i => { l with ix := putAt l.ix i (BitVec.ofInt 17 v) }
  | .ox i => { l with ox := putAt l.ox i (BitVec.ofInt 17 v) }
  | .iy i => { l with iy := putAt l.iy i (BitVec.ofInt 17 v) }
  | .oy i => { l with oy := putAt l.oy i (BitVec.ofInt 17 v) }
  | .a i => { l with a := putAt l.a i (BitVec.ofInt 80 v) }
  | .bxd => { l with bxd := lowBits 5 v }
  | .lflg => { l with lflg := BitVec.ofNat 32 (lowBits 4 v) }

/-- Flags raised in LFLG. -/
def Lane.raise (l : Lane) (f : LFlags) : Lane := { l with lflg := f.into l.lflg }

/-! ## Data RAM (R109, R110, R113) -/

/-- The terms of the Taylor series of sin at t, in units of 2^−64: term, remaining terms, order of the next. -/
def sineTerms (t2 : Int) : Nat → Int → Int → Int → Int
  | 0, _, _, acc => acc
  | n + 1, term, k, acc =>
    let term' := -(term * t2 / 2 ^ 64) / (k * (k + 1))
    sineTerms t2 n term' (k + 2) (acc + term')

/-- Entry j of the quarter-wave sine table: crnd (sin (2πj/16,384) × 2^31), saturated to 2^31 − 1 (R110). -/
def sineEntry (j : Nat) : Int :=
  -- 2π/16,384 in units of 2^−64
  let t : Int := 7074237752028440 * (j : Int)
  let s := sineTerms (t * t / 2 ^ 64) 12 t 2 t
  min (crndDiv s (2 ^ 33)) mMax

/-- The block table of lane n: first the entries that it works with, those of the run it holds or else those in force, then the
others that have been written as code was placed, at START, between ARM and the swap, or at a swap (R82, R144, R145). -/
def State.blockTable (s : State) (n : Nat) : List (Nat × Nat) :=
  let own := match (s.lane n).job with
    | some j => j.placed
    | none => s.cht.placed
  own ++ (s.cht.placed ++ s.cht.prepared).eraseDups.filter fun e => !own.contains e

/-- Word of the block table at an entry: the ID in [31:16] and the entry address in [14:0] (R144). -/
def tableWord (placed : List (Nat × Nat)) (i : Nat) : Word :=
  match placed[i]? with
  | some (addr, id) => BitVec.ofNat 32 (id * 65536 + addr)
  | none => 0

/-- Word i of the task context (R139). Words 6 to 15, to which R139 gives no content, read 0; the whole context reads 0 where
the lane holds no run, from the end of one to the hand-off of the next. Log 95 (DESIGN CHOICE). -/
def contextWord (l : Lane) (i : Nat) : Word :=
  match l.job with
  | none => 0
  | some j =>
    match i with
    | 0 => BitVec.ofNat 32 j.task
    | 1 => BitVec.ofNat 32 j.flow
    | 2 => j.flags
    | 3 => BitVec.ofNat 32 j.stamp
    | 4 => match j.axis with
           | some a => BitVec.ofNat 32 a
           | none => 0xFFFFFFFF
    | 5 => BitVec.ofNat 32 j.d
    | _ => 0

/-- What word i of data RAM is stored against: in scratch, the free value that stands for what the last task left there. -/
def Lane.ground (l : Lane) (i : Nat) : Word :=
  match l.scratch with
  | some n => if 0x4000 ≤ i then (Config.freeValue (n + i - 0x4000)).setWidth 32 else 0
  | none => 0

/-- The data RAM word that lane code reads at a byte address; the two low address bits are ignored (R109). The workspace of the
chain runner, 0x2100 to 0x7FFF, whose contents the spec leaves open, reads 0 (R149). Log 95 (DESIGN CHOICE). -/
def Lane.load (placed : List (Nat × Nat)) (l : Lane) (addr : Nat) : Word :=
  let a := addr % 0x20000
  if a < 0x1000 then tableWord placed (a / 4)
  else if a < 0x2000 then memRead l.ram (a / 4)
  else if a < 0x2040 then contextWord l ((a - 0x2000) / 4)
  else if a < 0x204C then (if a / 4 = 0x2044 / 4 then 1 else 0)
  else if a < 0x8000 then 0
  else if a < 0xC004 then BitVec.ofInt 32 (sineEntry ((a - 0x8000) / 4))
  else if a < 0x10000 then 0
  else memRead l.ram (a / 4) ^^^ l.ground (a / 4)

/-- The byte address lies in an area that lane code writes. -/
def writable (addr : Nat) : Bool :=
  let a := addr % 0x20000
  (0x1000 ≤ a && a < 0x2000) || 0x10000 ≤ a

/-- The commit-buffer line of a byte address, where a write there marks one (R113). -/
def lineOf (addr : Nat) : Option Nat :=
  let a := addr % 0x20000
  if 0x1100 ≤ a ∧ a < 0x1180 then some ((a - 0x1000) / 32)
  else if 0x1200 ≤ a ∧ a < 0x2000 then some ((a - 0x1000) / 32)
  else none

/-- A word written by lane code: TABLE_WRITE outside the writable areas, a stop at a 65th line, else the word is written
and its line marked (R109, R113). -/
def Lane.store (l : Lane) (addr : Nat) (w : Word) : LaneRes Lane :=
  if !writable addr then .error (.fault fTableWrite)
  else
    let i := addr % 0x20000 / 4
    let l' := { l with ram := memWrite l.ram i (w ^^^ l.ground i) }
    match lineOf addr with
    | none => .ok l'
    | some n =>
      if l.marks.contains n then .ok l'
      else if l.marks.length < 64 then .ok { l' with marks := l.marks ++ [n] }
      else .error .buffer

/-- Consecutive words stored from a byte address. -/
def Lane.storeWords (l : Lane) (addr : Nat) : List Word → LaneRes Lane
  | [] => .ok l
  | w :: ws =>
    match l.store addr w with
    | .ok l' => l'.storeWords (addr + 4) ws
    | .error e => .error e

/-! ## Parallel moves (R129, R130, R133) -/

/-- A decoded move field. -/
structure MoveF where
  en : Bool
  store : Bool
  wide : Bool
  idx : Nat
  ofs : Nat
  mode : Nat
  reg : Nat
  rsvd : Nat
  deriving DecidableEq, Repr

/-- The fields of a 20-bit move field. -/
def moveOf (m : BitVec 20) : MoveF :=
  { en := bit m 19, store := bit m 18, wide := bit m 17, idx := field m 16 14, ofs := field m 13 11,
    mode := field m 10 9, reg := field m 8 4, rsvd := field m 3 0 }

/-- The low n bits of a number in reversed order. -/
def reverseBits : Nat → Nat → Nat
  | 0, _ => 0
  | n + 1, v => (v % 2) * 2 ^ n + reverseBits n (v / 2)

/-- Reverse-carry sum of an index and an offset over [16:2], or [16:3] for a 64-bit move; bits below the field are those
of the index (R130). -/
def reverseAdd (i o : Nat) (wide : Bool) : Nat :=
  let lo := if wide then 3 else 2
  let n := 17 - lo
  let s := (reverseBits n (i / 2 ^ lo) + reverseBits n (o / 2 ^ lo)) % 2 ^ n
  reverseBits n s * 2 ^ lo + i % 2 ^ lo

/-- The address a move uses and the index it leaves, from the index and offset registers (R129). -/
def moveAddr (f : MoveF) (i o : Nat) : Nat × Nat :=
  let sum := (i + o) % 2 ^ 17
  match f.mode with
  | 0 => (i, sum)
  | 1 => (i, reverseAdd i o f.wide)
  | 2 => (i, i)
  | _ => (sum, i)

/-- The address with the bits below the access width ignored. -/
def alignAddr (f : MoveF) (a : Nat) : Nat := if f.wide then a / 8 * 8 else a / 4 * 4

/-- The register codes a move loads. -/
def MoveF.loads (f : MoveF) : List Nat :=
  if f.en && !f.store then (if f.wide then [f.reg, f.reg + 1] else [f.reg]) else []

/-- A move field is legal: no reserved bit, and an even code for a pair. -/
def MoveF.legal (f : MoveF) : Bool := f.rsvd == 0 && !(f.en && f.wide && f.reg % 2 == 1)

/-- A move register, code 0x00 to 0x1F. -/
def moveReg (c : Nat) : Reg := (regOf c).getD (.x 0)

/-- One move: its address and next index are those of the old lane, its load reads the old lane, its store is of the old
registers; it acts on the lane that the earlier operations of the instruction left. -/
def doMove (placed : List (Nat × Nat)) (f : MoveF) (agy : Bool) (old l : Lane) : LaneRes Lane :=
  if !f.en then .ok l
  else
    let i := if agy then (old.iy.getD f.idx 0).toNat else (old.ix.getD f.idx 0).toNat
    let o := if agy then (old.oy.getD f.ofs 0).toNat else (old.ox.getD f.ofs 0).toNat
    let (a, nx) := moveAddr f i o
    let at' := alignAddr f a
    let l1 := if agy then l.set (.iy f.idx) nx else l.set (.ix f.idx) nx
    if f.store then
      let w0 := BitVec.ofInt 32 (old.get (moveReg f.reg))
      let w1 := BitVec.ofInt 32 (old.get (moveReg (f.reg + 1)))
      l1.storeWords at' (if f.wide then [w0, w1] else [w0])
    else
      let l2 := l1.set (moveReg f.reg) (old.load placed at').toInt
      .ok (if f.wide then l2.set (moveReg (f.reg + 1)) (old.load placed (at' + 4)).toInt else l2)

/-! ## Second operands and conditions (R134, R136) -/

/-- The second operand of a format I instruction: IMM32 sign-extended, or a register where RR = 1. -/
def operand2 (f : IFields) (l : Lane) : LaneRes Int :=
  if f.rr then
    if f.imm.toNat < 128 then
      match regOf f.imm.toNat with
      | some r => .ok (l.get r)
      | none => illegal
    else illegal
  else .ok f.imm.toInt

/-- The second operand of a format I instruction where it must be a register. -/
def operandReg (f : IFields) : LaneRes Reg :=
  if f.rr && f.imm.toNat < 128 then regAt f.imm.toNat else illegal

/-- Whether the condition of a format C instruction holds; ILLEGAL for a reserved COND, or for a condition on N whose REG
names no N register. -/
def condHolds (f : CFields) (l : Lane) : LaneRes Bool :=
  match f.cond with
  | 0 => .ok true
  | 5 => .ok (bit l.lflg 0)
  | _ =>
    match regOf f.reg with
    | some (.n i) =>
      let v := l.get (.n i)
      match f.cond with
      | 1 => .ok (decide (v = 0))
      | 2 => .ok (decide (v ≠ 0))
      | 3 => .ok (decide (v < 0))
      | 4 => .ok (decide (0 ≤ v))
      | _ => illegal
    | _ => illegal

/-! ## Flow of instructions (R108, R131, R132) -/

/-- The ends of repeat passes at an address: the lane returns to the start of the innermost body, or pops its level after
the last pass and looks at the next. -/
def endPass (pc : Nat) : List RepLevel → Nat × List RepLevel
  | [] => ((pc + 1) % 2 ^ 15, [])
  | r :: rs =>
    if r.last = pc then
      if 1 < r.left then (r.first, { r with left := r.left - 1 } :: rs) else endPass pc rs
    else ((pc + 1) % 2 ^ 15, r :: rs)

/-- The lane after an instruction at pc that is not a taken branch or call. The innermost repeat level stands first. -/
def Lane.seqFrom (l : Lane) (pc : Nat) : Lane :=
  let (npc, rep) := endPass pc l.rep
  { l with pc := npc, rep := rep }

/-- The lane moved past the instruction at its own pc. -/
def Lane.next (l : Lane) : Lane := l.seqFrom l.pc

/-- An address of code RAM or lane ROM (R108). -/
def fetchable (pc : Nat) : Bool := pc < 0x4400

/-- An address of lane ROM. -/
def inRom (pc : Nat) : Bool := 0x4000 ≤ pc && pc < 0x4400

end Sys2Proof.Machine
end

