-- ==== Sys2Proof/Machine/LaneArith.lean ====
section
/-!
DEFINITION. What each lane instruction does to its lane, in the order of the table *Main instructions* (R137). Each
answers the lane after the instruction, or the fault that ends the job.
-/
namespace Sys2Proof.Machine
open Sys2Proof

/-- Two members of a list are equal. -/
def hasDup : List Nat → Bool
  | [] => false
  | a :: t => t.contains a || hasDup t

/-- A format P instruction: its moves are legal and no two of its operations write one register (R133, R135); the
arithmetic operation and then the moves act, all of them reading the old lane; `dst` are the codes the operation writes
among those that moves load. -/
def pRun (placed : List (Nat × Nat)) (f : PFields) (dst : List Nat) (op : Lane → LaneRes Lane) (l : Lane) :
    LaneRes Lane := do
  let mx := moveOf f.mx
  let my := moveOf f.my
  if !(mx.legal && my.legal) || hasDup (dst ++ mx.loads ++ my.loads) then illegal
  else
    let l1 ← op l
    let l2 ← doMove placed mx false l l1
    let l3 ← doMove placed my true l l2
    return l3.next

/-- A format I instruction: reserved bits are zero (R133, R134). -/
def iRun (f : IFields) (op : Lane → LaneRes Lane) (l : Lane) : LaneRes Lane :=
  if f.rsvd ≠ 0 ∨ (f.rr = true ∧ 128 ≤ f.imm.toNat) then illegal
  else do
    let l1 ← op l
    return l1.next

/-! ## Format P -/

/-- X register of the XS field. -/
def xOf (f : PFields) (l : Lane) : Int := l.get (.x f.xs)

/-- Y register of a number. -/
def yAt (l : Lane) (i : Nat) : Int := l.get (.y i)

/-- The source of LDA and ADL: X where SH[41] is 0, Y where it is 1. Log 6 (DEDUCED). -/
def srcXY (f : PFields) (l : Lane) : Int := if f.sh % 2 = 0 then xOf f l else yAt l f.ys

/-- The 5-bit destination code of RND, RNDE, NRND and SHLB, and the source of RSC: bits [53:49]. -/
def code5 (f : PFields) : Nat := f.xs * 4 + f.ys / 4

/-- The E register of [43:41]. -/
def eOf (f : PFields) : Reg := .e (f.sh % 8)

/-- NOP: moves only. -/
def laneNop (placed : List (Nat × Nat)) (f : PFields) (l : Lane) : LaneRes Lane :=
  pRun placed f [] (fun l => .ok l) l

/-- The products of X and a quad put into, added to or taken from the four accumulators. -/
def quadOp (f : PFields) (g : Int → Int → Int) (l : Lane) : LaneRes Lane :=
  if f.ys / 4 ≠ 0 then illegal
  else
    let x := xOf f l
    let q := 4 * (f.ys % 4)
    .ok (forRange 4 (fun i m => m.set (.a i) (g (l.acc i) (x * yAt l (q + i)))) l)

/-- MPY4: Ai := X × Y(4q+i). -/
def laneMpy4 (placed : List (Nat × Nat)) (f : PFields) (l : Lane) : LaneRes Lane :=
  pRun placed f [] (quadOp f fun _ p => p) l

/-- MAC4: Ai += X × Y(4q+i). -/
def laneMac4 (placed : List (Nat × Nat)) (f : PFields) (l : Lane) : LaneRes Lane :=
  pRun placed f [] (quadOp f fun a p => a + p) l

/-- MSU4: Ai −= X × Y(4q+i). -/
def laneMsu4 (placed : List (Nat × Nat)) (f : PFields) (l : Lane) : LaneRes Lane :=
  pRun placed f [] (quadOp f fun a p => a - p) l

/-- One product into one accumulator; SH is zero. -/
def oneOp (f : PFields) (g : Int → Int → Int) (l : Lane) : LaneRes Lane :=
  if f.sh ≠ 0 then illegal
  else .ok (l.set (.a f.acc) (g (l.acc f.acc) (xOf f l * yAt l f.ys)))

/-- MPY. -/
def laneMpy (placed : List (Nat × Nat)) (f : PFields) (l : Lane) : LaneRes Lane :=
  pRun placed f [] (oneOp f fun _ p => p) l

/-- MAC. -/
def laneMac (placed : List (Nat × Nat)) (f : PFields) (l : Lane) : LaneRes Lane :=
  pRun placed f [] (oneOp f fun a p => a + p) l

/-- MSU. -/
def laneMsu (placed : List (Nat × Nat)) (f : PFields) (l : Lane) : LaneRes Lane :=
  pRun placed f [] (oneOp f fun a p => a - p) l

/-- ADL: Aa += src × 2^31 (R114). -/
def laneAdl (placed : List (Nat × Nat)) (f : PFields) (l : Lane) : LaneRes Lane :=
  pRun placed f [] (fun l => .ok (l.set (.a f.acc) (l.acc f.acc + srcXY f l * 2 ^ 31))) l

/-- An operation of two accumulators, the second named by XS. -/
def accOp (f : PFields) (g : Int → Int → Int) (l : Lane) : LaneRes Lane :=
  if 4 ≤ f.xs then illegal else .ok (l.set (.a f.acc) (g (l.acc f.acc) (l.acc f.xs)))

/-- ADDA. Log 6 (DEDUCED). -/
def laneAdda (placed : List (Nat × Nat)) (f : PFields) (l : Lane) : LaneRes Lane :=
  pRun placed f [] (accOp f fun a b => a + b) l

/-- SUBA. -/
def laneSuba (placed : List (Nat × Nat)) (f : PFields) (l : Lane) : LaneRes Lane :=
  pRun placed f [] (accOp f fun a b => a - b) l

/-- NEGA. -/
def laneNega (placed : List (Nat × Nat)) (f : PFields) (l : Lane) : LaneRes Lane :=
  pRun placed f [] (fun l => .ok (l.set (.a f.acc) (-l.acc f.acc))) l

/-- CLRA: XS = 0b111 clears all four. -/
def laneClra (placed : List (Nat × Nat)) (f : PFields) (l : Lane) : LaneRes Lane :=
  pRun placed f [] (fun l =>
    .ok (if f.xs = 7 then forRange 4 (fun i m => m.set (.a i) 0) l else l.set (.a f.acc) 0)) l

/-- SHA with the signed shift of SH (R117). -/
def laneSha (placed : List (Nat × Nat)) (f : PFields) (l : Lane) : LaneRes Lane :=
  pRun placed f [] (fun l =>
    let (v, fl) := shaOf (l.acc f.acc) (signed 6 f.sh)
    .ok ((l.set (.a f.acc) v).raise fl)) l

/-- LDA: Aa := src × 2^31 (R114). -/
def laneLda (placed : List (Nat × Nat)) (f : PFields) (l : Lane) : LaneRes Lane :=
  pRun placed f [] (fun l => .ok (l.set (.a f.acc) (srcXY f l * 2 ^ 31))) l

/-- SHAE: SHA with a shift of −80 to 79 from an E register. Beyond that range spec/ states no result: the accumulator
takes `open1` and OVF the lowest bit of `open2`. Log 7 (DESIGN CHOICE). -/
def laneShae (placed : List (Nat × Nat)) (open1 open2 : Word64) (f : PFields) (l : Lane) : LaneRes Lane :=
  pRun placed f [] (fun l =>
    let s := l.get (eOf f)
    if -80 ≤ s ∧ s ≤ 79 then
      let (v, fl) := shaOf (l.acc f.acc) s
      .ok ((l.set (.a f.acc) v).raise fl)
    else
      .ok ((l.set (.a f.acc) (open1.toNat + open2.toNat / 2 * 2 ^ 64)).raise
        { LFlags.none with ovf := bit open2 0 })) l

/-- Whether a shift of SHAE lies outside the range for which its result is stated. -/
def shaeOpen (f : PFields) (l : Lane) : Bool :=
  let s := l.get (eOf f)
  decide (s < -80 ∨ 79 < s)

/-- A value passed to the block-exponent detector: BXD := min (BXD, rsc) (R120). -/
def Lane.detect (l : Lane) (v : Int) : Lane := { l with bxd := min l.bxd (rsc v) }

/-- An accumulator rounded to a destination with a shift, and passed to BXD where BXE is set (R116, R120). -/
def rndOp (f : PFields) (s : Int) (sat : Bool) (l : Lane) : Lane :=
  let (v, fl) := rnd32 (l.acc f.acc) s sat
  let l1 := (l.set (moveReg (code5 f)) v).raise fl
  if f.ys % 2 = 1 then l1.detect v else l1

/-- RND: dst := rnd32 (Aa, s). -/
def laneRnd (placed : List (Nat × Nat)) (f : PFields) (l : Lane) : LaneRes Lane :=
  pRun placed f [code5 f] (fun l => .ok (rndOp f (signed 6 f.sh) f.sat l)) l

/-- RNDE: dst := rnd32 (Aa, Ee). -/
def laneRnde (placed : List (Nat × Nat)) (f : PFields) (l : Lane) : LaneRes Lane :=
  pRun placed f [code5 f] (fun l => .ok (rndOp f (l.get (eOf f)) f.sat l)) l

/-- NRND: Ee := ex (Aa), dst := rnd32 (Aa, ex (Aa)) with saturation (R119). -/
def laneNrnd (placed : List (Nat × Nat)) (f : PFields) (l : Lane) : LaneRes Lane :=
  pRun placed f [code5 f] (fun l =>
    let s := exOf (l.acc f.acc)
    .ok ((rndOp f s true l).set (eOf f) s)) l

/-- EXPA: Ee := ex (Aa) (R119). -/
def laneExpa (placed : List (Nat × Nat)) (f : PFields) (l : Lane) : LaneRes Lane :=
  pRun placed f [] (fun l => .ok (l.set (eOf f) (exOf (l.acc f.acc)))) l

/-- RSC: BXD := min (BXD, rsc (src)) (R120). -/
def laneRsc (placed : List (Nat × Nat)) (f : PFields) (l : Lane) : LaneRes Lane :=
  pRun placed f [] (fun l => .ok (l.detect (l.get (moveReg (code5 f))))) l

/-- BXCLR: BXD := 31 (R120). -/
def laneBxclr (placed : List (Nat × Nat)) (f : PFields) (l : Lane) : LaneRes Lane :=
  pRun placed f [] (fun l => .ok { l with bxd := 31 }) l

/-- SHLB: dst := dst × 2^BXD (R120). -/
def laneShlb (placed : List (Nat × Nat)) (f : PFields) (l : Lane) : LaneRes Lane :=
  pRun placed f [code5 f] (fun l =>
    let r := moveReg (code5 f)
    .ok (l.set r (l.get r * 2 ^ l.bxd))) l

/-! ## Format I -/

/-- LI: dst := IMM32, sign-extended where the destination is wider. -/
def laneLi (f : IFields) (l : Lane) : LaneRes Lane :=
  iRun f (fun l => do
    let d ← regAt f.dst
    return l.set d f.imm.toInt) l

/-- MOV: dst := src; of an accumulator, bits [31:0], [63:32] or [79:64] by IMM32[1:0]. For the fourth value of that field
spec/ states no result: the destination takes `open1`. Log 7 (DESIGN CHOICE). A part goes zero-extended into a destination that
is wider. Log 19 (DEDUCED). -/
def laneMov (open1 : Word64) (f : IFields) (l : Lane) : LaneRes Lane :=
  iRun f (fun l => do
    let d ← regAt f.dst
    let r ← regAt f.src
    match r with
    | .a i =>
      let w := l.a.getD i 0
      return l.set d (match f.imm.toNat % 4 with
        | 0 => (field w 31 0 : Int)
        | 1 => (field w 63 32 : Int)
        | 2 => (field w 79 64 : Int)
        | _ => (open1.toNat : Int))
    | r => return l.set d (l.get r)) l

/-- Whether a MOV asks for a part of an accumulator that spec/ does not name. -/
def movOpen (f : IFields) : Bool :=
  match regOf f.src with
  | some (.a _) => f.imm.toNat % 4 == 3
  | _ => false

/-- dst := g (src, operand). -/
def binOp (f : IFields) (g : Int → Int → Int) (l : Lane) : LaneRes Lane := do
  let d ← regAt f.dst
  let r ← regAt f.src
  let v ← operand2 f l
  return l.set d (g (l.get r) v)

/-- A bitwise operation of two integers at 96 bits. -/
def bitOp (g : BitVec 96 → BitVec 96 → BitVec 96) (a b : Int) : Int :=
  (g (BitVec.ofInt 96 a) (BitVec.ofInt 96 b)).toInt

/-- ADDN. -/
def laneAddn (f : IFields) (l : Lane) : LaneRes Lane := iRun f (binOp f fun a b => a + b) l

/-- SUBN. -/
def laneSubn (f : IFields) (l : Lane) : LaneRes Lane := iRun f (binOp f fun a b => a - b) l

/-- ANDN: the bitwise AND. -/
def laneAndn (f : IFields) (l : Lane) : LaneRes Lane := iRun f (binOp f (bitOp fun a b => a &&& b)) l

/-- ORN. -/
def laneOrn (f : IFields) (l : Lane) : LaneRes Lane := iRun f (binOp f (bitOp fun a b => a ||| b)) l

/-- XORN. -/
def laneXorn (f : IFields) (l : Lane) : LaneRes Lane := iRun f (binOp f (bitOp fun a b => a ^^^ b)) l

/-- A shift count: the operand as an unsigned 32-bit number, past the widest register at most. Log 8 (DEDUCED). -/
def shiftCount (v : Int) : Nat := min (lowBits 32 v) 96

/-- SHLN: logical left. Log 8 (DEDUCED). -/
def laneShln (f : IFields) (l : Lane) : LaneRes Lane :=
  iRun f (binOp f fun a b => a * 2 ^ shiftCount b) l

/-- SARN: arithmetic right. -/
def laneSarn (f : IFields) (l : Lane) : LaneRes Lane :=
  iRun f (binOp f fun a b => a / 2 ^ shiftCount b) l

/-- ADDE: the sum held to −128 to 127, EXP where it is held. -/
def laneAdde (f : IFields) (l : Lane) : LaneRes Lane :=
  iRun f (fun l => do
    let d ← regAt f.dst
    let r ← regAt f.src
    let v ← operand2 f l
    let (e, fl) := expAdd (l.get r) v
    return (l.set d e).raise fl) l

/-- A 64-bit value written to a register and the next, its low word first. -/
def setPair (l : Lane) (c : Nat) (lo hi : Int) : LaneRes Lane := do
  let d0 ← regAt c
  let d1 ← regAt (c + 1)
  return (l.set d0 lo).set d1 hi

/-- IMUL: the 64-bit signed product into dst and dst + 1. Log 19 (DEDUCED). -/
def laneImul (f : IFields) (l : Lane) : LaneRes Lane :=
  iRun f (fun l => do
    let r ← regAt f.src
    let v ← operand2 f l
    let p := BitVec.ofInt 64 (signed 32 (lowBits 32 (l.get r)) * signed 32 (lowBits 32 v))
    setPair l f.dst (signed 32 (field p 31 0)) (signed 32 (field p 63 32))) l

/-- IDIV: dst:dst+1 divided by the operand, truncated; divisor 0 gives 0 and sets OVF. A quotient of more than 32 bits is
not stated: dst takes `open1`. Its SRC code is not used, and a reserved one is ILLEGAL (R107). Log 19 (DEDUCED). -/
def laneIdiv (open1 : Word64) (f : IFields) (l : Lane) : LaneRes Lane :=
  iRun f (fun l => do
    let d0 ← regAt f.dst
    let d1 ← regAt (f.dst + 1)
    let _ ← regAt f.src
    let v ← operand2 f l
    let n := signed 64 (lowBits 32 (l.get d0) + lowBits 32 (l.get d1) * 2 ^ 32)
    let d := signed 32 (lowBits 32 v)
    if d = 0 then return ((l.set d0 0).set d1 0).raise { LFlags.none with ovf := true }
    else
      let q := Int.tdiv n d
      let q' := if -2147483648 ≤ q ∧ q ≤ mMax then q else (open1.toNat : Int)
      return (l.set d0 q').set d1 (Int.tmod n d)) l

/-- Whether the quotient of an IDIV has more than 32 bits. -/
def idivOpen (f : IFields) (l : Lane) : Bool :=
  match regOf f.dst, regOf (f.dst + 1), operand2 f l with
  | some d0, some d1, .ok v =>
    let n := signed 64 (lowBits 32 (l.get d0) + lowBits 32 (l.get d1) * 2 ^ 32)
    let d := signed 32 (lowBits 32 v)
    let q := Int.tdiv n d
    decide (d ≠ 0) && !decide (-2147483648 ≤ q ∧ q ≤ mMax)
  | _, _, _ => false

/-- MINE: dst := min (dst, src), signed. -/
def laneMine (f : IFields) (l : Lane) : LaneRes Lane :=
  iRun f (fun l => do
    let d ← regAt f.dst
    let r ← regAt f.src
    return l.set d (min (l.get d) (l.get r))) l

/-- A P register of a code. -/
def pReg (c : Nat) : LaneRes Nat :=
  match regOf c with
  | some (.p i) => .ok i
  | _ => illegal

/-- An IX register of a code. -/
def ixReg (c : Nat) : LaneRes Nat :=
  match regOf c with
  | some (.ix i) => .ok i
  | _ => illegal

/-- An N register of a code. -/
def nReg (c : Nat) : LaneRes Nat :=
  match regOf c with
  | some (.n i) => .ok i
  | _ => illegal

/-- An accumulator of a code. -/
def aReg (c : Nat) : LaneRes Nat :=
  match regOf c with
  | some (.a i) => .ok i
  | _ => illegal

/-- The three words of a position in the order of R58. Log 90 (DESIGN CHOICE). -/
def posWords (p : Pos) : List Word := [p.extractLsb' 0 32, p.extractLsb' 32 32, p.extractLsb' 64 32]

/-- A position from its three words. -/
def posOfWords (w0 w1 w2 : Word) : Pos := BitVec.ofNat 96 (w0.toNat + w1.toNat * 2 ^ 32 + w2.toNat * 2 ^ 64)

/-- PLD: Pd from three words at IXn, which then advances by 12 (R125). The low two bits of IXn are ignored in the address, as
R129 says of parallel moves. Log 95 (DESIGN CHOICE). -/
def lanePld (placed : List (Nat × Nat)) (f : IFields) (l : Lane) : LaneRes Lane :=
  iRun f (fun l => do
    let d ← pReg f.dst
    let i ← ixReg f.src
    let a := (l.ix.getD i 0).toNat / 4 * 4
    let v := posOfWords (l.load placed a) (l.load placed (a + 4)) (l.load placed (a + 8))
    return ({ l with p := putAt l.p d v }).set (.ix i) ((l.ix.getD i 0).toNat + 12)) l

/-- PST: Pd to three words at IXn, which then advances by 12 (R125), with the low two bits of IXn ignored in the address.
Log 95 (DESIGN CHOICE). -/
def lanePst (f : IFields) (l : Lane) : LaneRes Lane :=
  iRun f (fun l => do
    let d ← pReg f.dst
    let i ← ixReg f.src
    let a := (l.ix.getD i 0).toNat / 4 * 4
    let l1 ← l.storeWords a (posWords (l.p.getD d 0))
    return l1.set (.ix i) ((l.ix.getD i 0).toNat + 12)) l

/-- Pd := Pd ± Ps (R125). -/
def posOp (f : IFields) (sub : Bool) (l : Lane) : LaneRes Lane := do
  let d ← pReg f.dst
  let s ← pReg f.src
  let (v, fl) := posAdd (l.p.getD d 0) (l.p.getD s 0) sub
  return ({ l with p := putAt l.p d v }).raise fl

/-- PADD. -/
def lanePadd (f : IFields) (l : Lane) : LaneRes Lane := iRun f (posOp f false) l

/-- PSUB. -/
def lanePsub (f : IFields) (l : Lane) : LaneRes Lane := iRun f (posOp f true) l

/-- PEXT Pd, Nraw, Nlast: Nlast is the register of the second operand (R126). -/
def lanePext (f : IFields) (l : Lane) : LaneRes Lane :=
  iRun f (fun l => do
    let d ← pReg f.dst
    let raw ← nReg f.src
    let r ← operandReg f
    match r with
    | .n last =>
      let v := posExt (l.p.getD d 0) (l.n.getD raw 0) (l.n.getD last 0)
      return { l with p := putAt l.p d v, n := putAt l.n last (l.n.getD raw 0) }
    | _ => illegal) l

/-- PACC Pd, src, Ee: Ee is the register of the second operand (R128). -/
def lanePacc (f : IFields) (l : Lane) : LaneRes Lane :=
  iRun f (fun l => do
    let d ← pReg f.dst
    let m ← regAt f.src
    let r ← operandReg f
    match r with
    | .e i =>
      return { l with p := putAt l.p d (posAcc (l.p.getD d 0) (signed 32 (lowBits 32 (l.get m))) (l.get (.e i))) }
    | _ => illegal) l

/-- PBF Aa, Pa, Pb: Pb is the register of the second operand (R127). -/
def lanePbf (f : IFields) (l : Lane) : LaneRes Lane :=
  iRun f (fun l => do
    let d ← aReg f.dst
    let a ← pReg f.src
    let r ← operandReg f
    match r with
    | .p b =>
      let (v, fl) := posDiff (l.p.getD a 0) (l.p.getD b 0)
      return (l.set (.a d) v).raise fl
    | _ => illegal) l

/-! ## Ledger instructions: what they ask for (R140, R141) -/

/-- The Ledger read an LGET asks for: the identifier and the N register of its value. N(d + 1) takes the status.
Log 16 (DEDUCED). -/
def lgetOf (f : IFields) (l : Lane) : LaneRes LaneRead :=
  if f.rsvd ≠ 0 ∨ (f.rr = true ∧ 128 ≤ f.imm.toNat) then illegal
  else do
    let d ← nReg f.dst
    let s ← nReg f.src
    if 15 ≤ d then illegal
    else
      let id := (l.n.getD s 0).toNat
      if 2 ^ 25 ≤ id then .error (.fault fSignalInvalid) else return .single id d

/-- Every word of a run of data RAM can be written by lane code. -/
def runWritable (addr : Nat) : Nat → Bool
  | 0 => true
  | n + 1 => writable addr && runWritable (addr + 4) n

/-- The new commit lines a run of words marks. -/
def newLines (marks : List Nat) (addr : Nat) : Nat → List Nat
  | 0 => marks
  | n + 1 =>
    match lineOf addr with
    | some k => newLines (if marks.contains k then marks else marks ++ [k]) (addr + 4) n
    | none => newLines marks (addr + 4) n

/-- The Ledger read an LGETB or LGETBU asks for: c entries from the identifier in Ns, to data RAM at IXn (R140). The low three
bits of IXn are ignored in the address, while IXn itself advances by 8c; RR = 1 has no meaning here and is ILLEGAL.
Log 16 (DEDUCED), log 95 (DESIGN CHOICE). -/
def lgetbOf (f : IFields) (l : Lane) : LaneRes LaneRead :=
  if f.rsvd ≠ 0 ∨ f.rr = true then illegal
  else do
    let i ← ixReg f.dst
    let s ← nReg f.src
    let c := f.imm.toNat
    if c = 0 ∨ 32 < c then illegal
    else
      let id := (l.n.getD s 0).toNat
      let a := (l.ix.getD i 0).toNat / 8 * 8
      if 2 ^ 25 < id + c then .error (.fault fSignalInvalid)
      else if !runWritable a (2 * c) then .error (.fault fTableWrite)
      else if 64 < (newLines l.marks a (2 * c)).length then .error .buffer
      else return .block id c i

/-- The beats of a Ledger read (R140). -/
def LaneRead.beats : LaneRead → Nat
  | .single _ _ => 1
  | .block _ c _ => (c + 3) / 4

/-- The identifiers a Ledger read names. -/
def LaneRead.ids : LaneRead → List Nat
  | .single id _ => [id]
  | .block id c _ => (List.range c).map (id + ·)

/-- The lane when the entries of its read have come: LGET fills Nd and N(d + 1); LGETB fills data RAM and advances IXn
by 8 bytes an entry (R140). -/
def Lane.deliver (l : Lane) (r : LaneRead) (es : List Word64) : LaneRes Lane :=
  match r with
  | .single _ d =>
    let e := es.getD 0 0
    .ok (((l.set (.n d) (signed 32 (field e 31 0))).set (.n (d + 1)) (signed 32 (field e 63 32))).next)
  | .block _ c i => do
    let a := (l.ix.getD i 0).toNat
    let ws := es.flatMap fun e => [e.extractLsb' 0 32, e.extractLsb' 32 32]
    let l1 ← l.storeWords (a / 8 * 8) ws
    return (l1.set (.ix i) (a + 8 * c)).next

/-- The write an LPUT posts: Ns names the signal, Nv the value and N(v + 1) the status; the stamp is that of the job.
Log 17 (DEDUCED). -/
def lputOf (f : IFields) (l : Lane) : LaneRes Post :=
  if f.rsvd ≠ 0 ∨ (f.rr = true ∧ 128 ≤ f.imm.toNat) then illegal
  else do
    let s ← nReg f.dst
    let v ← nReg f.src
    if 15 ≤ v then illegal
    else
      let id := (l.n.getD s 0).toNat
      if 2 ^ 25 ≤ id then .error (.fault fSignalInvalid)
      else return { id := id, value := l.n.getD v 0, status := (l.n.getD (v + 1) 0).toNat % 256,
                    stamp := match l.job with | some j => j.stamp | none => 0 }

/-! ## Format C -/

/-- A format C instruction: its reserved bits are zero (R133). -/
def cRun (f : CFields) (op : Lane → LaneRes Lane) (l : Lane) : LaneRes Lane :=
  if f.rsvd ≠ 0 then illegal else op l

/-- BRA: a taken branch goes to TARGET, and pops the innermost repeat level where TARGET lies outside its body (R132);
a target in lane ROM raises PRIV (R108). -/
def laneBra (f : CFields) (l : Lane) : LaneRes Lane :=
  cRun f (fun l => do
    let c ← condHolds f l
    if !c then return l.next
    else if inRom f.target then .error (.fault fPriv)
    else
      let rep := match l.rep with
        | r :: rs => if r.first ≤ f.target ∧ f.target ≤ r.last then r :: rs else rs
        | [] => []
      return { l with pc := f.target, rep := rep }) l

/-- A call to an address: the return address and the repeat depth are pushed (R132, R138). -/
def Lane.callTo (l : Lane) (target : Nat) : LaneRes Lane :=
  if 8 ≤ l.ret.length then .error (.fault fCallOverflow)
  else .ok { l with pc := target, ret := { addr := l.pc + 1, depth := l.rep.length } :: l.ret }

/-- CALL. -/
def laneCall (f : CFields) (l : Lane) : LaneRes Lane :=
  cRun f (fun l => if inRom f.target then .error (.fault fPriv) else l.callTo f.target) l

/-- CALLB: the entry of the block whose ID IMM16 names (R145). An ID that the table does not hold is an illegal field.
Log 16 (DEDUCED). -/
def laneCallb (placed : List (Nat × Nat)) (f : CFields) (l : Lane) : LaneRes Lane :=
  cRun f (fun l =>
    match placed.find? (fun e => e.2 == f.imm16) with
    | some (addr, _) => l.callTo addr
    | none => illegal) l

/-- The return address that leads into the chain runner in lane ROM. -/
def runnerEntry : Nat := 0x4000

/-- RET: the return address is popped; REP_UNBALANCED at a repeat depth other than that of the call (R132). A return to
an address of code RAM goes on past the call as any instruction does. -/
def laneRet (f : CFields) (l : Lane) : LaneRes Lane :=
  cRun f (fun l =>
    match l.ret with
    | [] => .ok { l with pc := runnerEntry }
    | r :: rs =>
      if l.rep.length ≠ r.depth then .error (.fault fRepUnbalanced)
      else if inRom r.addr then .ok { l with pc := r.addr, ret := rs }
      else .ok (({ l with ret := rs }).seqFrom (r.addr - 1))) l

/-- REP: a level pushed, a count of 0 skipping the body (R131). REG = 0x7F takes the count of IMM16. -/
def laneRep (f : CFields) (l : Lane) : LaneRes Lane :=
  cRun f (fun l => do
    let n ← (if f.reg = 0x7F then Except.ok f.imm16 else do
      let i ← nReg f.reg
      return (l.n.getD i 0).toNat)
    if f.target < l.pc + 1 then illegal
    else if n = 0 then return l.seqFrom f.target
    else if 4 ≤ l.rep.length then .error (.fault fRepOverflow)
    else return { l with pc := l.pc + 1, rep := { first := l.pc + 1, last := f.target, left := n } :: l.rep }) l

end Sys2Proof.Machine
end

