-- ==== Sys2Proof/Machine/Ledger.lean ====
section
/-!
DEFINITION. The Ledger (11_ledger_and_arbiter, R282 to R293): entries, reserved identifiers, the local I/O class, the
cache, and the window.
-/
namespace Sys2Proof.Machine
open Sys2Proof

/-! ## Identifiers and entries (R6, R282 to R286) -/

/-- Class of an identifier. -/
def idClass (id : Nat) : Nat := id / 2 ^ 20
/-- Group of an identifier. -/
def idGroup (id : Nat) : Nat := id / 2 ^ 10 % 2 ^ 10
/-- Item of an identifier. -/
def idItem (id : Nat) : Nat := id % 2 ^ 10

/-- The identifier S.cc.ggg.iii (R6). -/
def sigId (cls group item : Nat) : Nat := cls * 2 ^ 20 + group * 2 ^ 10 + item

/-- A reserved identifier: its class is reserved or its group is not in use (R283, R284). -/
def idReserved (id : Nat) : Bool :=
  let c := idClass id
  let g := idGroup id
  c == 0 || (5 ≤ c && c ≤ 7) || (c == 1 && 0x100 ≤ g) || (c == 2 && 0x200 ≤ g) || (c == 3 && 4 ≤ g)

/-- An entry: value, status and stamp (R282). -/
def entry (value : Word) (status stamp : Nat) : Word64 :=
  BitVec.ofNat 64 (value.toNat + (status % 256) * 2 ^ 32 + (stamp % 2 ^ 24) * 2 ^ 40)

/-- Value word of an entry. -/
def entryValue (e : Word64) : Word := e.extractLsb' 0 32
/-- Status of an entry. -/
def entryStatus (e : Word64) : Nat := field e 39 32
/-- Stamp of an entry. -/
def entryStamp (e : Word64) : Nat := field e 63 40

/-- The value of an item of class 0x03 (R286). -/
def Local.item (io : Local) (group item : Nat) : Option Word :=
  match group with
  | 0 =>
    if 32 ≤ item then none
    else
      let p := io.fb.getD (item / 2) FbPort.reset
      some (if item % 2 = 0 then p.latCount else p.latStat)
  | 1 => if 8 ≤ item then none else some ((io.ainLat.getD item 0).setWidth 32)
  | 2 => if 16 ≤ item then none else some (io.trg.getD item Trg.reset).latFirings
  | 3 => match item with
    | 0 => some io.gpioLat
    | 1 => some io.gpioOutW
    | 2 => some io.gpioEnW
    | _ => none
  | _ => none

/-- The entry of an identifier of class 0x03: VALID, with the stamp of the latches; nothing where the table lists none. -/
def Local.entry (io : Local) (group item : Nat) : Word64 :=
  match io.item group item with
  | some v => Sys2Proof.Machine.entry v 1 io.latStamp
  | none => 0

/-- The stored entry of an identifier, class 0x03 from the latches (R286). -/
def State.entryOf (s : State) (id : Nat) : Word64 :=
  if idClass id = 3 then s.io.entry (idGroup id) (idItem id) else memRead s.ledger.mem id

/-- An access to a reserved identifier: RESERVED is set and the identifier and requester are recorded (R284). -/
def Ledger.reservedAccess (l : Ledger) (req id : Nat) : Ledger :=
  { l with evt := setBit l.evt 0, errId := BitVec.ofNat 32 (id + req * 2 ^ 25) }

/-! ## The cache (R291, R292, R460) -/

/-- The line of an identifier: eight entries. Log 84 (DEDUCED). -/
def lineId (id : Nat) : Nat := id / 8

/-- A pinned identifier (R66, R291). -/
def Ledger.pinned (l : Ledger) (id : Nat) : Bool := l.pins.any fun p => p.1 ≤ id && id < p.1 + p.2

/-- Entries pinned (LGR_PINNED). Log 61 (DEDUCED). -/
def Ledger.pinCount (l : Ledger) : Nat := l.pins.foldl (fun n p => n + p.2) 0

/-- Sets of the cache that pins leave: 262,144 lines less the pinned ones, in eight ways. Log 84 (DEDUCED). -/
def Ledger.sets (l : Ledger) : Nat := (262144 - l.pinCount / 8) / 8

/-- The line of an identifier is held. -/
def Ledger.held (l : Ledger) (id : Nat) : Bool := l.pinned id || l.lines.contains (lineId id)

/-- A lookup of the line of an identifier: a hit makes it the most recently used; a miss asks the DRAM controller for a
fill. Class 0x03 and reserved identifiers are not held in the cache. -/
def Ledger.lookup (l : Ledger) (id : Nat) : Ledger :=
  if idClass id = 3 ∨ idReserved id then l
  else
    let n := lineId id
    if l.pinned id then { l with hits := l.hits + 1 }
    else if l.lines.contains n then
      { l with hits := l.hits + 1, lines := l.lines.filter (fun m => m != n) ++ [n] }
    else
      { l with misses := l.misses + 1, fills := if l.fills.contains n then l.fills else l.fills ++ [n] }

/-- The lines that a cache of k sets holds of a list, the least recently used first: the eight last used of each set (R291). -/
def keepEight (k : Nat) : List Nat → List Nat
  | [] => []
  | n :: t =>
    let r := keepEight k t
    if 8 ≤ (r.filter fun m => m % k == n % k).length then r else n :: r

/-- Lines beyond what the sets hold, and lines that pins hold, leave (R291). -/
def Ledger.trim (l : Ledger) : Ledger := { l with lines := keepEight l.sets (l.lines.filter fun n => !l.pinned (8 * n)) }

/-- A line brought in: where its set holds eight lines, the least recently used of them leaves. -/
def Ledger.fill (l : Ledger) (n : Nat) : Ledger :=
  Ledger.trim { l with lines := l.lines.filter (fun m => m != n) ++ [n], wbuf := l.wbuf.filter (fun m => m != n) }

/-- The pin set of an incoming Charter: its entries are present, and the other lines keep to the sets that are left (R291). -/
def Ledger.repin (l : Ledger) (pins : List (Nat × Nat)) : Ledger := Ledger.trim { l with pins := pins, pinLoading := false }

/-- Lines that a waiting read needs and that have left since its lookup are asked for again (R460). -/
def Ledger.ask (l : Ledger) (ids : List Nat) : Ledger :=
  ids.foldl (fun l id =>
    if idClass id = 3 ∨ idReserved id = true ∨ l.held id = true ∨ l.fills.contains (lineId id) = true then l
    else { l with fills := l.fills ++ [lineId id] }) l

/-- Room for a beat in the write buffer of 64: a write waits until the oldest line that beats wait for has been filled. A write
that the model carries out within one command has had that wait (R460). Log 23 (DESIGN CHOICE). -/
def Ledger.room (l : Ledger) : Ledger :=
  match l.wbuf with
  | n :: _ => if l.wbuf.length < 64 then l else Ledger.fill { l with fills := l.fills.filter fun m => m != n } n
  | [] => l

/-- DRAM_ACCESS_COMPLETE: the DRAM controller completes the oldest fill of the cache; beats of the write buffer that
waited for its line leave for the cache (R292, R460). Log 97 (DESIGN CHOICE). -/
def execDramAccessComplete (s : State) : Host.Outcome State Fault Refusal :=
  match s.ledger.fills with
  | [] => .next s
  | n :: rest => .next (s.mapLedger fun l => ({ l with fills := rest }).fill n)

/-! ## Reads and writes at their last beat (R282, R284, R289, R293) -/

/-- An entry as a read of a requester returns it, with the events of the read: 0 for a reserved identifier and for an
uncorrectable error, which stays with the stored bits until the entry is written (R284, R293). -/
def State.readEntry (s : State) (req id : Nat) (ecc : Ecc) : Word64 × State :=
  if idReserved id then (0, s.mapLedger fun l => l.reservedAccess req id)
  else if idClass id = 3 then (s.entryOf id, s)
  else match if s.ledger.bad.contains id then .uncorrectable else ecc with
    | .clean => (s.entryOf id, s)
    | .corrected => (s.entryOf id, s.mapLedger fun l => { l with eccCorr := l.eccCorr + 1, evt := setBit l.evt 2 })
    | .uncorrectable =>
      (0, s.mapLedger fun l =>
        { l with evt := setBit l.evt 3, errId := BitVec.ofNat 32 (id + req * 2 ^ 25 + 2 ^ 30)
                 bad := if l.bad.contains id then l.bad else l.bad ++ [id] })

/-- The values of entries as the cycle block reads them, which is none of the table *Fabric requesters*: its requester number is
31 (R284, R293). Log 116 (DESIGN CHOICE). -/
def State.readValues (s : State) (ids : List Nat) : List Word × State :=
  ids.foldl (fun r id => let (e, t) := r.2.readEntry 31 id .clean; (r.1 ++ [entryValue e], t)) ([], s)

/-- An identifier written since the last Escrow, on a unit that sends one (R380). -/
def Par.dirty (p : Par) (id : Nat) : Par :=
  if p.role == .active && !p.dirtyIds.contains id then { p with dirtyIds := p.dirtyIds ++ [id] } else p

/-- A write to an item of class 0x03: the GPIO levels and enables are taken at the next clearing point; no other item
takes a write (R286). -/
def Local.write (io : Local) (group item : Nat) (v : Word) : Local :=
  if group = 3 ∧ item = 1 then { io with gpioOutW := v }
  else if group = 3 ∧ item = 2 then { io with gpioEnW := v }
  else io

/-- A write of an entry takes effect: of a reserved identifier, the record only; of class 0x03, the local I/O; else the
entry, whose line the cache looks up (R284, R286, R289). -/
def State.writeEntry (s : State) (req id : Nat) (e : Word64) : State :=
  if idReserved id then s.mapLedger fun l => l.reservedAccess req id
  else if idClass id = 3 then s.mapIo fun io => io.write (idGroup id) (idItem id) (entryValue e)
  else
    let s1 := s.mapLedger fun l =>
      let l1 := ({ l with mem := memWrite l.mem id e, bad := l.bad.filter fun i => i != id }).lookup id
      if l1.held id then l1 else let l2 := l1.room; { l2 with wbuf := l2.wbuf ++ [lineId id] }
    s1.mapPar fun p => p.dirty id

/-- A signal published by the device itself: VALID, with STALE and SAT as they stand (R285). None is published in
reduced service (R407). -/
def State.publish (s : State) (req id : Nat) (value : Word) (stale sat : Bool) (stamp : Nat) : State :=
  if s.reduced then s
  else s.writeEntry req id (entry value (1 + flagAt stale 1 + flagAt sat 2) stamp)

/-! ## The window (R288) -/

/-- Requester number of a source on the window (R288). -/
def srcReq : Source → Nat
  | .app0 => 16
  | .app1 => 17
  | .app2 => 18
  | .app3 => 19
  | .svc => 20
  | .linkEngine => 21
  | .host => 23

/-- Whether an access has a form of the table *Window accesses*, with its identifier and whether it names word 1. -/
def windowForm (width : Width) (addr : Nat) : Option (Nat × Bool) :=
  let off := addr - 0x50000000
  match width with
  | .w64 => if off % 8 = 0 then some (off / 8, false) else none
  | .w32 => if off % 8 = 0 then some (off / 8, false) else if off % 8 = 4 then some (off / 8, true) else none
  | _ => none

/-- What a window read returns of an entry. -/
def windowValue (width : Width) (hi : Bool) (e : Word64) : Word64 :=
  match width with
  | .w64 => e
  | _ => if hi then (e.extractLsb' 32 32).setWidth 64 else (e.extractLsb' 0 32).setWidth 64

/-- The entry a window write leaves: the whole entry; the value, with the stamp of the cycle number; or word 1. -/
def windowEntry (width : Width) (hi : Bool) (old value : Word64) (num : Nat) : Word64 :=
  match width with
  | .w64 => value
  | _ =>
    if hi then entry (entryValue old) (field value 7 0) (field value 31 8)
    else entry (value.extractLsb' 0 32) (entryStatus old) (num % 2 ^ 24)

/-- Classes a standby mirrors: no core or host writes them there (R381). -/
def mirroredClass (c : Nat) : Bool := c == 1 || c == 2 || c == 4 || (8 ≤ c && c ≤ 0x1F)

/-- A window write at its last beat (R288, R381). -/
def State.windowWrite (s : State) (src : Source) (width : Width) (id : Nat) (hi : Bool) (value : Word64) : State :=
  if s.par.role == .standby && mirroredClass (idClass id) then
    s.mapPar fun p => { p with evt := setBit p.evt 9 }
  else s.writeEntry (srcReq src) id (windowEntry width hi (s.entryOf id) value s.cyc.num)

/-- LGR_EVT.NOT_READY. -/
def State.notReady (s : State) : State := s.mapLedger fun l => { l with evt := setBit l.evt 1 }

end Sys2Proof.Machine
end

