-- ==== Sys2Proof/Machine/Arbiter.lean ====
section
/-!
DEFINITION. The Ledger fabric and its arbiter (11_ledger_and_arbiter, R294 to R301): requests, eligibility, decisions,
preemption, Allowances, promotion and the Tally. An FCLK cycle is two TCLK edges.
-/
namespace Sys2Proof.Machine
open Sys2Proof

/-- The FCLK cycle of the present instant (R29). -/
def State.fclk (s : State) : Nat := s.tim.edges / 2

/-- The arbiter's record of a requester. -/
def Arb.reqState (a : Arb) (n : Nat) : ArbReq := a.per.getD n ArbReq.reset

/-- The record of a requester changed. -/
def Arb.mapReq (a : Arb) (n : Nat) (f : ArbReq → ArbReq) : Arb := { a with per := setAt a.per n f }

/-- A request issued at the end of its requester's order (R289). -/
def Arb.issue (a : Arb) (req : Nat) (x : Xfer) (beats : Nat) (urgent : Bool) : Arb :=
  let r : Req :=
    { req := req, xfer := x, beats := beats, urgent := urgent, eligible := false, restart := false,
      promoted := false, sampledAt := none, waited := 0 }
  { a with reqs := a.reqs ++ [r] }

/-- The oldest request of a requester: the only one that is granted next (R289). -/
def Arb.head? (a : Arb) (n : Nat) : Option Req := a.reqs.find? (fun r => r.req == n)

/-- The oldest request of a requester replaced. -/
def replaceHead (n : Nat) (f : Req → Req) : List Req → List Req
  | [] => []
  | r :: t => if r.req == n then f r :: t else r :: replaceHead n f t

/-- The oldest request of a requester taken out. -/
def dropHead (n : Nat) : List Req → List Req
  | [] => []
  | r :: t => if r.req == n then t else r :: dropHead n t

/-- A decision cycle: CYCLES of an episode that has taken effect count from it (R393). -/
def Ptb.decision (p : Ptb) : Ptb := { p with bpWait := false }

/-- Back-pressure holds a requester not eligible (R393). -/
def Ptb.holds (p : Ptb) (n : Nat) : Bool := field p.bpA 27 8 ≠ 0 && field p.bpA 4 0 == n

/-- The Ledger identifiers a transfer names, and whether it writes them. -/
def State.xferIds (s : State) : Xfer → List Nat × Bool
  | .laneRead n => match (s.lane n).stall with
    | some r => (r.ids, false)
    | none => ([], false)
  | .lanePost n => (((s.lane n).post.head?.map fun p => [p.id]).getD [], true)
  | .windowRead _ _ id _ => ([id], false)
  | .windowWrite _ _ id _ _ => ([id], true)
  | .acqRead chans _ => (chans.map fun c => field (s.acq.ch.getD c 0) 24 0, false)
  | .acqWrite _ => ([], false)

/-- The target of a request can take it: a read's lines are all held, or a write's beats have room in the write buffer of
64 beats (R294, R388, R460). -/
def State.targetReady (s : State) (r : Req) : Bool :=
  match s.xferIds r.xfer with
  | (_, true) => s.ledger.wbuf.length + r.beats ≤ 64
  | (ids, false) => ids.all fun id => idClass id == 3 || idReserved id || s.ledger.held id

/-- REQUEST_ELIGIBLE: the oldest request of a requester becomes eligible; the arbiter samples it from the next FCLK cycle. A read
whose line is not held asks for its fill, where none is under way (R294, R295, R460). -/
def execRequestEligible (req : Nat) (s : State) : Host.Outcome State Fault Refusal :=
  match s.arb.head? req with
  | none => .next s
  | some r =>
    if r.eligible || s.ptb.holds req then .next s
    else if !s.targetReady r then
      .next (s.mapLedger fun l => match s.xferIds r.xfer with
        | (_, true) => l
        | (ids, false) => l.ask ids)
    else .next (s.mapArb fun a =>
      { a with reqs := replaceHead req
                 (fun r => { r with eligible := true, sampledAt := some (s.fclk + 1) }) a.reqs })

/-! ## Decisions (R295 to R299) -/

/-- The class in which a request is selected: 0 urgent, 1 sealed, 2 high, 3 normal, 4 low; none where its requester is
masked (R296, R299). A lane of the urgent class is normal beyond its urgent budget (R297). Log 18 (DEDUCED). -/
def Arb.group (a : Arb) (r : Req) : Option Nat :=
  let p := a.reqState r.req
  if r.restart then some 1
  else if r.urgent then some 0
  else if r.promoted then some 2
  else match p.cls with
    | 1 => if p.masked then none else some 2
    | 3 => some 4
    | _ => some 3

/-- A request is sampled in a cycle. -/
def Req.sampled (r : Req) (d : Nat) : Bool :=
  r.eligible && match r.sampledAt with
    | some u => u ≤ d
    | none => false

/-- The oldest requests of the requesters that are sampled in a cycle and not held back. -/
def State.candidates (s : State) (d : Nat) : List Req :=
  (List.range 24).filterMap fun n =>
    match s.arb.head? n with
    | some r => if r.sampled d && !s.ptb.holds n then some r else none
    | none => none

/-- Round robin: the first of the candidates after a requester, in order of requester ID (R296). -/
def roundRobin (last : Nat) (l : List Req) : Option Req :=
  match l.find? (fun r => last < r.req) with
  | some r => some r
  | none => l.head?

/-- The request a decision selects with its group (R296). -/
def State.select (s : State) (d : Nat) : Option (Nat × Req) :=
  let c := s.candidates d
  (List.range 5).findSome? fun g =>
    (roundRobin (s.arb.rr.getD g 0) (c.filter fun r => s.arb.group r == some g)).map fun r => (g, r)

/-- The cycle of the last beat of the transfer under way (R295). -/
def Owner.lastBeat (o : Owner) : Nat := o.granted + (if o.turn then 1 else 0) + o.r.beats

/-- The updates of FCLK cycle d start afresh where the last ones were of another cycle (R301). -/
def ArbReq.inCycle (p : ArbReq) (d : Nat) : ArbReq :=
  if p.updAt = d then p else { p with updAt := d, updGrants := 0, updWait := 0, updMax := 0 }

/-- WAIT of a transfer grows in cycle d by the cycles since its sampling (R301). -/
def ArbReq.wait' (p0 : ArbReq) (d w total : Nat) : ArbReq :=
  let p := p0.inCycle d
  { p with
    wait := p.wait + BitVec.ofNat 48 w, waitMax := min (max p.waitMax total) (2 ^ 24 - 1)
    updWait := p.updWait + BitVec.ofNat 48 w, updMax := min (max p.updMax total) (2 ^ 24 - 1) }

/-- GRANTS counts a transfer whose last beat completes in cycle d (R301). -/
def ArbReq.done (p0 : ArbReq) (d : Nat) : ArbReq :=
  let p := p0.inCycle d
  { p with grants := p.grants + 1, updGrants := p.updGrants + 1 }

/-- GRANTS and WAIT cleared in cycle d: the updates of that cycle are applied to the cleared values (R301). -/
def ArbReq.clear (p0 : ArbReq) (d : Nat) : ArbReq :=
  let p := p0.inCycle d
  { p with grants := p.updGrants, wait := p.updWait }

/-- WAIT_MAX cleared by the bits written, in cycle d: the largest total of that cycle is applied to what is left (R12, R301). -/
def ArbReq.clearMax (p0 : ArbReq) (d : Nat) (v : Word) : ArbReq :=
  let p := p0.inCycle d
  { p with waitMax := max (w1c (BitVec.ofNat 32 p.waitMax) v 0xFFFFFF).toNat p.updMax }

/-- A grant of a high-class requester that is neither promoted nor a sealed restart counts against its Allowance; the requester
that reaches it is masked (R299). -/
def ArbReq.count' (p : ArbReq) (restart promoted : Bool) : ArbReq :=
  if p.cls = 1 ∧ restart = false ∧ promoted = false then
    { p with count := p.count + 1, masked := p.masked || decide (p.allowance ≤ p.count + 1) }
  else p

/-- ARB_EVT.MASKED where a requester has become masked. -/
def Arb.maskedNow (a : Arb) (n : Nat) (was : ArbReq) : Arb :=
  if (a.reqState n).masked && !was.masked then { a with evt := setBit a.evt 1 } else a

/-- A transfer of a requester that the model carries out within the command that makes it: its grant counts against the Allowance
and in GRANTS, with no WAIT (R299, R301). Log 23 (DESIGN CHOICE). Log 97 (DESIGN CHOICE). -/
def Arb.atOnce (a : Arb) (d n : Nat) : Arb :=
  (a.mapReq n fun p => (p.count' false false).done d).maskedNow n (a.reqState n)

/-- A transfer of a requester carried out at once. -/
def State.transfer (s : State) (n : Nat) : State := s.mapArb fun a => a.atOnce s.fclk n

/-- The grant of a request in cycle d: a parked repeat takes no turn cycle (R295); the Tally and the Allowance are kept
(R299, R301). -/
def Arb.grant (a : Arb) (d g : Nat) (r : Req) : Arb :=
  let w := match r.sampledAt with
    | some u => d - u
    | none => 0
  let turn := !(a.parked && a.lastOwner == r.req && a.owner.isNone)
  let a1 := (a.mapReq r.req fun p => (p.wait' d w (r.waited + w)).count' r.restart r.promoted).maskedNow r.req
    (a.reqState r.req)
  { a1 with
    reqs := dropHead r.req a1.reqs
    owner := some { r := { r with waited := r.waited + w }, granted := d, turn := turn }
    lastOwner := r.req
    rr := putAt a1.rr g r.req }

/-- The owner's transfer abandoned in cycle d: it becomes a sealed restart at the head of its requester's order, and its
wait runs from this cycle (R298, R301). -/
def Arb.abandon (a : Arb) (d : Nat) (o : Owner) : Arb :=
  { a with
    reqs := { o.r with eligible := true, restart := true, promoted := false, sampledAt := some d } :: a.reqs
    owner := none, parked := false, preempts := a.preempts + 1, evt := setBit a.evt 0 }

/-- The urgent request that would preempt the transfer under way: of another requester, since the transfers of one requester
keep their order (R289, R296, R298). Log 83 (DEDUCED). -/
def State.preemptor (s : State) (d : Nat) (o : Owner) : Option Req :=
  roundRobin (s.arb.rr.getD 0 0) ((s.candidates d).filter fun r => s.arb.group r == some 0 && r.req != o.r.req)

/-- ARB_DECISION: with no transfer under way the first request of R296 is granted. With one under way, an urgent request
sampled in this cycle preempts it where it is neither urgent nor sealed and has a beat to come (R298). -/
def execArbDecision (s : State) : Host.Outcome State Fault Refusal :=
  let d := s.fclk
  match s.arb.owner with
  | none =>
    match s.select d with
    | some (g, r) => .next ((s.mapArb fun a => a.grant d g r).mapPtb Ptb.decision)
    | none => .next (s.mapPtb Ptb.decision)
  | some o =>
    match s.preemptor d o with
    | some r =>
      if !o.r.urgent && !o.r.restart && decide (d < o.lastBeat) then
        .next (s.mapArb fun a => (a.abandon d o).grant d 0 r)
      else .next s
    | none => .next s

/-- PROMOTION: a normal or low request sampled in 1,024 cycles without a grant is promoted (R296). -/
def execPromotion (req : Nat) (s : State) : Host.Outcome State Fault Refusal :=
  match s.arb.head? req with
  | none => .next s
  | some r =>
    let old := match r.sampledAt with
      | some u => decide (u + 1024 ≤ s.fclk + 1)
      | none => false
    let g := s.arb.group r
    if r.eligible && old && !r.promoted && (g == some 3 || g == some 4) then
      .next (s.mapArb fun a =>
        { a with reqs := replaceHead req (fun r => { r with promoted := true }) a.reqs, evt := setBit a.evt 2 })
    else .next s

/-- Classes, Allowances, window length and urgent budget put into force (R299). -/
def Arb.applyClasses (a : Arb) : Arb :=
  match a.pendingCls with
  | none => a
  | some (cls, len, beats) =>
    { a with
      per := (indexed a.per).map fun p =>
        let c := cls.getD p.1 (2, 64)
        { p.2 with cls := c.1, allowance := c.2 }
      winLen := len, urgentBeats := beats, pendingCls := none }

/-- ALLOWANCE_WINDOW_END: a window has run its length; the next begins with every count at 0 and no requester masked, and
with the classes that waited for it (R299). -/
def execAllowanceWindowEnd (s : State) : Host.Outcome State Fault Refusal :=
  if s.arb.winStart + s.arb.winLen ≤ s.fclk then
    .next (s.mapArb fun a =>
      let per := a.per.map fun p => { p with count := 0, masked := false }
      Arb.applyClasses { a with winStart := a.winStart + a.winLen, per := per })
  else .next s

/-- TALLY_CLEAR: GRANTS and WAIT of each requester named are set to 0, but for what the same FCLK cycle has added (R301). -/
def execTallyClear (_src : Source) (value : Word) (s : State) : Host.Outcome State Fault Refusal :=
  .next (s.mapArb fun a =>
    { a with per := (indexed a.per).map fun p => if bit value p.1 then p.2.clear s.fclk else p.2 })

/-- The transfer whose last beat completes leaves the fabric; GRANTS counts it; its requester's next transfer is a parked
repeat where this data phase began with a turn cycle (R295, R301). -/
def Arb.finish (a : Arb) (d : Nat) (o : Owner) : Arb :=
  { (a.mapReq o.r.req fun p => p.done d) with
    owner := none, parked := o.turn, lastSealed := o.r.restart }

/-! ## Window accesses become requests (R288) -/

/-- LEDGER_WINDOW_READ: a permitted read becomes a fabric read; before READY it returns zero and sets NOT_READY; any other
width or alignment returns zero and sets WIDTH (R287, R288). -/
def execLedgerWindowRead (src : Source) (width : Width) (addr : Nat) (s : State) :
    Host.Outcome State Fault Refusal :=
  match windowForm width addr with
  | none => .next ({ s with readData := 0 }.errWidth src false width addr)
  | some (id, hi) =>
    if !s.ledger.ready then .next { s with readData := 0 }.notReady
    else .next ((s.mapLedger fun l => l.lookup id).mapArb fun a =>
      a.issue (srcReq src) (.windowRead src width id hi) 1 false)

/-- LEDGER_WINDOW_WRITE: a permitted write becomes a fabric write, which takes effect at its last beat (R287, R288). -/
def execLedgerWindowWrite (src : Source) (width : Width) (addr : Nat) (value : Word64) (s : State) :
    Host.Outcome State Fault Refusal :=
  match windowForm width addr with
  | none => .next (s.errWidth src true width addr)
  | some (id, hi) =>
    if !s.ledger.ready then .next s.notReady
    else .next (s.mapArb fun a => a.issue (srcReq src) (.windowWrite src width id hi value) 1 false)

end Sys2Proof.Machine
end

