-- ==== Sys2Proof/Machine/Wire.lean ====
section
/-!
DEFINITION. The words of frames (12_tabna_lines, 13_enrolment_and_violations, 15_paired_units): the CRC of R306, the fields of
what is received, and the characters of what is sent.
-/
namespace Sys2Proof.Machine
open Sys2Proof

/-! ## The CRC (R306) -/

/-- The bytes of a word, [7:0] first. -/
def wordBytes (w : Word) : List Byte :=
  [w.extractLsb' 0 8, w.extractLsb' 8 8, w.extractLsb' 16 8, w.extractLsb' 24 8]

/-- One bit into the CRC. -/
def crcBit (c : BitVec 16) (b : Bool) : BitVec 16 :=
  if c.getLsbD 15 != b then (c <<< 1) ^^^ 0x1021 else c <<< 1

/-- One byte, most significant bit first. -/
def crcByte (c : BitVec 16) (b : Byte) : BitVec 16 :=
  [7, 6, 5, 4, 3, 2, 1, 0].foldl (fun c i => crcBit c (b.getLsbD i)) c

/-- The CRC of R306 over bytes. -/
def crc16 (l : List Byte) : BitVec 16 := l.foldl crcByte 0xFFFF

/-- The CRC over words, in transmission order. -/
def crcWords (l : List Word) : BitVec 16 := crc16 (l.flatMap wordBytes)

/-- A unit with its CRC behind it, low byte first. -/
def withCrc (l : List Word) : List Byte :=
  let c := crcWords l
  l.flatMap wordBytes ++ [c.extractLsb' 0 8, c.extractLsb' 8 8]

/-! ## Messages (R319, R331) -/

/-- The header word of a message. -/
def msgHead (station kind n : Nat) : Word := BitVec.ofNat 32 (station + kind * 2 ^ 16 + n * 2 ^ 24)

/-- The characters of a message that is sent, its CRC among them. -/
def TxMsg.wire (m : TxMsg) : List Byte := withCrc (msgHead m.station m.kind m.payload.length :: m.payload)

/-- TIMED_OUT of a compare unit (R322). -/
def TimedEvt.msg (e : TimedEvt) : TxMsg :=
  { station := e.station, cell := false, kind := 0x01
    payload := twoWords e.tc ++ [BitVec.ofNat 32 (e.out % 4 + e.action % 4 * 4 + e.pulseW % 4096 * 2 ^ 16)] }

/-! ## Issue slots (R311, R312) -/

/-- The words of an issue slot. -/
def IssueSlot.words (x : IssueSlot) : List Word :=
  [BitVec.ofNat 32 (x.station + x.recs.length * 2 ^ 16 + flagAt x.io.isSome 21 + flagAt x.terminate 22), x.dUi]
    ++ x.recs.flatMap (fun r => [r.1, r.2]) ++ (match x.io with | some (v, e) => [v, e] | none => [])

/-! ## Mirror frames (R366) -/

/-- A mirror frame of a type. -/
def mirFrame (type : Nat) (payload : List Word) : MirFrame :=
  let hdr := BitVec.ofNat 32 (type + 4 * payload.length * 2 ^ 16)
  { hdr := hdr, payload := payload, crc := crcWords (hdr :: payload), lane := 0 }

/-- The lane of a frame: the lanes take turns, and one that is alone up carries every frame. -/
def mirLane (mir : List Bool) (turn : Nat) : Nat :=
  match mir.getD 0 false, mir.getD 1 false with
  | true, false => 0
  | false, true => 1
  | _, _ => turn % 2

/-- Frames put on the lanes, in their order. -/
def Par.onLanes (p : Par) (l : List MirFrame) : List MirFrame :=
  (indexed l).map fun e => { e.2 with lane := mirLane p.mir (p.txTurn + e.1) }

/-- The lane that is next after so many frames. -/
def Par.turned (p : Par) (n : Nat) : Par := { p with txTurn := (p.txTurn + n) % 2 }

/-- A CONTROL frame: the step of a transfer, 1 request, 2 acknowledgement, 3 GO or 4 ABANDON, with k_t (R378).
Log 54 (DESIGN CHOICE). -/
def State.sendControl (s : State) (code kt : Nat) : State :=
  s.mapPar fun p => { p.turned 1 with ctlTx := (p.onLanes [mirFrame 3 (BitVec.ofNat 32 code :: twoWords kt)]).head? }

end Sys2Proof.Machine

namespace Sys2Proof
open Sys2Proof.Machine

/-! ## What is received (R310, R313, R314, R319, R330) -/

/-- STATION of a message: a station number, or the position in a discovery cell. -/
def Msg.station (m : Msg) : Nat := field m.hdr 9 0

/-- KIND of a message. -/
def Msg.kind (m : Msg) : Nat := field m.hdr 23 16

/-- The CRC of a message holds. -/
def Msg.crcOk (m : Msg) : Bool := crcWords (m.hdr :: m.payload) == m.crcRx

/-- The CRC of a return slot holds. -/
def RetSlot.crcOk (r : RetSlot) : Bool := crcWords (r.hdr ++ r.body) == r.crcRx

/-- The header of a return frame is one, and its CRC holds. -/
def RetFrame.hdrOk (f : RetFrame) : Bool := crcWords f.hdr == f.hdrCrc && field (f.hdr.getD 0 0) 7 0 == 0x02

/-- The sample cycle of a return frame, [31:0]. -/
def RetFrame.cycle (f : RetFrame) : Nat := (f.hdr.getD 1 0).toNat

/-- The CRC of bytes 0 to 15 of a cell holds. -/
def Cell.crcOk (c : Cell) : Bool := crcWords c.status == c.crcRx

/-- PRESENT of a cell. -/
def Cell.present (c : Cell) : Bool := bit (c.status.getD 0 0) 0

/-- LOCKED of a cell. -/
def Cell.locked (c : Cell) : Bool := bit (c.status.getD 0 0) 1

/-- ASSIGNED of a cell. -/
def Cell.assigned (c : Cell) : Bool := bit (c.status.getD 0 0) 2

/-- The station number of a cell, 0x3FF where not assigned. -/
def Cell.station (c : Cell) : Nat := field (c.status.getD 0 0) 25 16

/-- CUT_UI of a cell. -/
def Cell.cutUi (c : Cell) : Nat := field (c.status.getD 1 0) 15 0

/-- ARR_UI of a cell. -/
def Cell.arrUi (c : Cell) : Nat := (c.status.getD 2 0).toNat

/-- DEP_UI of a cell. -/
def Cell.depUi (c : Cell) : Nat := (c.status.getD 3 0).toNat

/-- The header of a discovery reply is one, and its CRC holds. -/
def DiscReply.hdrOk (r : DiscReply) : Bool := crcWords r.hdr == r.hdrCrc && field (r.hdr.getD 0 0) 7 0 == 0x04

/-- N of a discovery reply, the position of the turning station: 1 to 16. -/
def DiscReply.n (r : DiscReply) : Nat := min (field (r.hdr.getD 0 0) 12 8) 16

/-- SEQ that a discovery reply echoes. -/
def DiscReply.seq (r : DiscReply) : Word := r.hdr.getD 1 0

/-- The header of an issue frame is one, and its CRC holds. -/
def IssueHdr.crcOk (h : IssueHdr) : Bool := crcWords h.hdr == h.crcRx && field (h.hdr.getD 0 0) 7 0 == 0x01

/-- CYCLE of an issue header, [31:0]. -/
def IssueHdr.cycle (h : IssueHdr) : Nat := (h.hdr.getD 1 0).toNat

/-- EPOCH of an issue header. -/
def IssueHdr.epoch (h : IssueHdr) : Nat := (h.hdr.getD 7 0).toNat

/-- LEASE of an issue header. -/
def IssueHdr.lease (h : IssueHdr) : Nat := field (h.hdr.getD 8 0) 6 0

/-- Launch stamp of an issue header, UI of the timescale of R37. -/
def IssueHdr.launchUi (h : IssueHdr) : Nat :=
  5 * ((h.hdr.getD 2 0).toNat + (h.hdr.getD 3 0).toNat * 2 ^ 32) + field (h.hdr.getD 4 0) 2 0

/-- Twice the one-way mirror delay, from the heartbeats in both directions, in units of 10 ps (R367). -/
def HbStamps.twiceDelay (h g : HbStamps) : Int := ((g.arr : Int) - g.dep) + ((h.arr : Int) - h.dep)

/-- Twice what the pair time of the other unit is ahead of the device time of this one, in units of 10 ps (R367). -/
def HbStamps.twiceOffs (h g : HbStamps) : Int := ((g.arr : Int) - g.dep) - ((h.arr : Int) - h.dep)

end Sys2Proof
end

