-- ==== Sys2Proof/Machine/Acquire.lean ====
section
/-!
DEFINITION. Acquisition and triggers (14_acquisition): channels and their reduction, the record stream and its blocks, the
trigger and its placement, calibration, the bandwidth check, the upload ring, and the commands of the engine.
-/
namespace Sys2Proof.Machine
open Sys2Proof

/-! ## Channels (R350 to R352) -/

/-- Cycle channel j is enabled. -/
def Acq.cycleEn (a : Acq) (j : Nat) : Bool := bit (a.ch.getD j 0) 25
/-- Fast channel n is enabled. -/
def Acq.fastEn (a : Acq) (n : Nat) : Bool := bit (a.fch.getD n 0) 8

/-- Enabled cycle channels, in order. -/
def Acq.cycleChans (a : Acq) : List Nat := (List.range 64).filter a.cycleEn
/-- Enabled fast channels, in order. -/
def Acq.fastChans (a : Acq) : List Nat := (List.range 8).filter a.fastEn

/-- A recording is under way. -/
def Acq.recording (a : Acq) : Bool := a.state == .filling || a.state == .armed || a.state == .post

/-- CH of ACQ_TRIG. -/
def Acq.trigCh (a : Acq) : Nat := field a.trig 6 0
/-- COND of ACQ_TRIG. -/
def Acq.cond (a : Acq) : Nat := field a.trig 10 8

/-- SRC of a fast channel. -/
def Acq.fastSrc (a : Acq) (n : Nat) : Nat := field (a.fch.getD n 0) 5 4

/-- A channel carries levels: GPIO or TRG. -/
def Acq.levels (a : Acq) (j : Nat) : Bool := decide (64 ≤ j) && a.fastSrc (j - 64) != 0

/-- Values of a channel compare as signed. -/
def Acq.signedCh (a : Acq) (j : Nat) : Bool := decide (j < 64) && bit (a.ch.getD j 0) 31

/-- The sample of a fast channel: the last complete code of an AIN, or levels, those of the GPIO inputs given (R352).
Log 102 (DESIGN CHOICE). -/
def State.fastValue (s : State) (gpio : Word) (n : Nat) : Word :=
  match s.acq.fastSrc n with
  | 0 => (s.io.ain.getD (field (s.acq.fch.getD n 0) 2 0) 0).setWidth 32
  | 1 => gpio
  | 2 => (indexed s.io.trg).foldl (fun w e => if e.2.level then setBit w e.1 else w) 0
  | _ => 0

/-- Divisor of a cycle channel under a Charter; none where its rate is not in use (R351). -/
def Acq.chanDiv (a : Acq) (c : Charter) (j : Nat) : Option Nat :=
  let r := field (a.ch.getD j 0) 27 26
  if decide (c.baseRate ≤ r) && Nat.testBit c.ratesUsed r then some (rateDiv c.baseRate r) else none

/-! ## The record stream (R354 to R356) -/

/-- Header word of a record. -/
def recHead (type form len : Nat) : Word := BitVec.ofNat 32 (type + form * 2 ^ 8 + len * 2 ^ 16)

/-- Bytes that stand in the staging buffer: records formed and not yet moved to DRAM. -/
def Acq.staged (a : Acq) : Nat :=
  4 * (a.blockWords.length + a.blocksOut.foldl (fun n b => n + b.2.length) 0) - 256 * (a.moved - 16 * a.written)

/-- A block begun at a time with its BLOCK record. -/
def Acq.begin (a : Acq) (n now : Nat) : Acq :=
  { a with blockN := n, blockWords := [recHead 1 0 4, BitVec.ofNat 32 n] ++ twoWords now }

/-- The rest of the block in progress filled by a PAD record, and the block handed out; between blocks there is none. -/
def Acq.close (a : Acq) : Acq :=
  if a.blockWords = [] then a
  else
    let rest := 1024 - a.blockWords.length
    let pad := if rest = 0 then [] else recHead 8 0 rest :: List.replicate (rest - 1) 0
    { a with blocksOut := a.blocksOut ++ [(a.blockN, a.blockWords ++ pad)], blockWords := [] }

/-- A record enters the stream; one that does not fit in the rest of the block begins the next, and a block that is filled is
handed out (R355). -/
def Acq.put (a : Acq) (now : Nat) (r : List Word) : Acq :=
  let a1 := if 1024 < a.blockWords.length + r.length then a.close else a
  let a2 := if a1.blockWords = [] then a1.begin (a1.blockN + 1) now else a1
  let a3 := { a2 with blockWords := a2.blockWords ++ r }
  if 1024 ≤ a3.blockWords.length then a3.close else a3

/-- A marker record: never dropped; a GAP record precedes it where records have been dropped. -/
def Acq.marker (a : Acq) (now : Nat) (r : List Word) : Acq :=
  let a1 := if a.gap = 0 then a
    else { a.put now [recHead 7 0 2, BitVec.ofNat 32 a.gap] with gap := 0, bytes := a.bytes + 8 }
  { a1.put now r with bytes := a1.bytes + 4 * r.length }

/-- A data record: dropped and counted where the staging buffer, less the 1 KiB kept for markers, is full. -/
def Acq.data (a : Acq) (now : Nat) (fast : Bool) (r : List Word) : Acq :=
  let need := 4 * r.length + (if a.gap = 0 then 0 else 8)
  if 261120 < a.staged + need then
    { a with dropped := a.dropped + 1, gap := a.gap + 1, evt := setBit a.evt 3 }
  else
    let a1 := a.marker now r
    if fast then { a1 with bytesF := a1.bytesF + 4 * r.length } else { a1 with bytesC := a1.bytesC + 4 * r.length }

/-- A record already in the stream replaced by one of the same length. -/
def Acq.patch (a : Acq) (n off : Nat) (r : List Word) : Acq :=
  let sub := fun (ws : List Word) => ws.take off ++ r ++ ws.drop (off + r.length)
  if a.blockN = n ∧ a.blockWords ≠ [] then { a with blockWords := sub a.blockWords }
  else { a with blocksOut := a.blocksOut.map fun b => if b.1 = n then (n, sub b.2) else b }

/-! ## Reduction (R353) -/

/-- The smaller and the larger of two words. -/
def wordLe (sgn : Bool) (x y : Word) : Bool := if sgn then decide (x.toInt ≤ y.toInt) else decide (x.toNat ≤ y.toNat)

/-- A fresh sample enters the reduction of an interval. -/
def AcqAcc.add (r : AcqAcc) (levels sgn : Bool) (v : Word) : AcqAcc :=
  if !r.fresh then { fresh := true, minV := v, maxV := v }
  else if levels then { fresh := true, minV := r.minV &&& v, maxV := r.maxV ||| v }
  else { fresh := true, minV := if wordLe sgn r.minV v then r.minV else v,
         maxV := if wordLe sgn r.maxV v then v else r.maxV }

/-- Two reductions of one channel joined. -/
def AcqAcc.join (r q : AcqAcc) (levels sgn : Bool) : AcqAcc :=
  if q.fresh then (r.add levels sgn q.minV).add levels sgn q.maxV else r

/-- A sample into the interval that starts at a base cycle or device time. -/
def addAt (start : Nat) (f : AcqAcc → AcqAcc) : List (Nat × AcqAcc) → List (Nat × AcqAcc)
  | [] => [(start, f AcqAcc.reset)]
  | e :: t => if e.1 = start then (start, f e.2) :: t else e :: addAt start f t

/-- A fresh sample of a channel at a base cycle or device time, into its interval: records are formed only when every channel
has its samples, so later intervals may have some already. Log 79 (DEDUCED). -/
def Acq.sample (a : Acq) (j : Nat) (v : Word) (at1 : Nat) : Acq :=
  let f := fun (r : AcqAcc) => r.add (a.levels j) (a.signedCh j) v
  let (len, first) := if j < 64 then (2 ^ a.cLog, a.cFirst) else (2 ^ a.fLog * 1000, a.fFirst)
  let start := at1 / len * len
  { a with chan := setAt a.chan j fun c =>
      if start = first then { c with cur := f c.cur } else { c with nxt := addAt start f c.nxt } }

/-- The values of a channel in a record: a channel with no fresh sample repeats its last. -/
def AcqChan.words (c : AcqChan) (form : Nat) : List Word :=
  let lo := if c.cur.fresh then c.cur.minV else c.lastMin
  let hi := if c.cur.fresh then c.cur.maxV else c.lastMax
  if form = 0 then [lo] else [lo, hi]

/-- The interval of a channel ends: the values of its record are kept. -/
def AcqChan.finish (c : AcqChan) : AcqChan :=
  { c with
    cur := AcqAcc.reset
    lastMin := if c.cur.fresh then c.cur.minV else c.lastMin, lastMax := if c.cur.fresh then c.cur.maxV else c.lastMax }

/-- The samples that a channel has regrouped into intervals of a length from a first instant on. -/
def AcqChan.regroup (c : AcqChan) (levels sgn : Bool) (first len : Nat) : AcqChan :=
  let all := if c.cur.fresh then (first, c.cur) :: c.nxt else c.nxt
  let into := fun (l : List (Nat × AcqAcc)) (e : Nat × AcqAcc) => addAt (e.1 / len * len) (fun r => r.join e.2 levels sgn) l
  let l := all.foldl into []
  { c with
    cur := ((l.find? fun e => e.1 == first).map fun e => e.2).getD AcqAcc.reset
    nxt := l.filter fun e => e.1 != first }

/-- Channel j of the engine. -/
def Acq.chan! (a : Acq) (j : Nat) : AcqChan := a.chan.getD j AcqChan.reset

/-- FRESH bits of channels 0 to 63. -/
def Acq.freshMask (a : Acq) : Nat :=
  a.cycleChans.foldl (fun n j => n + flagAt (a.chan! j).cur.fresh j) 0

/-- The CYCLE record of the interval in progress. -/
def Acq.cycleRec (a : Acq) : List Word :=
  let form := if a.cLog = 0 then 0 else 1
  let vals := a.cycleChans.flatMap fun j => (a.chan! j).words form
  [recHead 3 form (4 + vals.length), BitVec.ofNat 32 a.cFirst] ++ twoWords a.freshMask ++ vals

/-- The FAST record of the interval in progress. -/
def Acq.fastRec (a : Acq) : List Word :=
  let form := if a.fLog = 0 then 0 else 1
  let vals := a.fastChans.flatMap fun n => (a.chan! (64 + n)).words form
  [recHead 4 form (3 + vals.length)] ++ twoWords a.fFirst ++ vals

/-- RATE record. -/
def rateRec (fast : Bool) (log first : Nat) : List Word :=
  [recHead 5 0 4, BitVec.ofNat 32 (flagAt fast 0 + log * 256)] ++ twoWords first

/-- The channels of a stream changed. -/
def Acq.mapStream (a : Acq) (fast : Bool) (f : Nat → AcqChan → AcqChan) : Acq :=
  { a with chan := (indexed a.chan).map fun e => if decide (64 ≤ e.1) == fast then f e.1 e.2 else e.2 }

/-- The intervals of a stream from the first instant in hand on: at a new length where one begins there, after a RATE record
(R354). -/
def Acq.align (a : Acq) (now : Nat) (fast : Bool) : Acq :=
  let first := if fast then a.fFirst else a.cFirst
  let a1 := match (if fast then a.fNext else a.cNext) with
    | (l, at1) :: rest =>
      if at1 = first then
        let b := a.marker now (rateRec fast l first)
        if fast then { b with fLog := l, fNext := rest } else { b with cLog := l, cNext := rest }
      else a
    | [] => a
  let len := if fast then 2 ^ a1.fLog * 1000 else 2 ^ a1.cLog
  a1.mapStream fast fun j c => c.regroup (a.levels j) (a.signedCh j) first len

/-- The cycle interval in progress ends: its record, and the interval after it, at a new length where one begins there. -/
def Acq.endCycle (a : Acq) (now : Nat) : Acq :=
  let a1 := if a.cycleChans.isEmpty then a else a.data now false a.cycleRec
  ({ a1.mapStream false fun _ c => c.finish with cFirst := a1.cFirst + 2 ^ a1.cLog }).align now false

/-- The fast interval in progress ends. -/
def Acq.endFast (a : Acq) (now : Nat) : Acq :=
  let a1 := if a.fastChans.isEmpty then a else a.data now true a.fastRec
  ({ a1.mapStream true fun _ c => c.finish with fFirst := a1.fFirst + 2 ^ a1.fLog * 1000 }).align now true

/-- Pieces of 256 B that the record stream has: sixteen to a block. -/
def Acq.pieces (a : Acq) : Nat :=
  if a.blockWords = [] then 16 * a.blockN else 16 * (a.blockN - 1) + a.blockWords.length / 64

/-- The words of a piece. -/
def Acq.piece (a : Acq) (i : Nat) : List Word :=
  let n := i / 16 + 1
  let ws := match a.blocksOut.find? fun b => b.1 == n with
    | some b => b.2
    | none => if a.blockN = n then a.blockWords else []
  (ws.drop (i % 16 * 64)).take 64

/-- Every piece that is whole is asked for on the fabric, in transfers of 8 beats (R354). -/
def State.acqPush (s : State) : State :=
  let a := s.acq
  (forEach ((List.range (a.pieces - a.issued)).map fun i => a.issued + i)
    (fun i s => s.mapArb fun q => q.issue 22 (.acqWrite i) 8 false) s).mapAcq fun a => { a with issued := max a.issued a.pieces }

/-- Transfers of the record stream that wait are given up: a recording has ended at its post count, or another begins. -/
def Arb.dropWrites (a : Arb) : Arb :=
  { a with reqs := a.reqs.filter fun r => match r.xfer with
      | .acqWrite _ => false
      | _ => true }

/-- The byte address of a piece of the record stream. -/
def Acq.pieceAt (a : Acq) (i : Nat) : Nat := a.base.toNat + i / 16 % a.size.toNat * 4096 + i % 16 * 256

/-- A piece of the record stream completes on the fabric: it stands in DRAM (R294, R355). Where a START has placed the Ledger over
the region since, the write has no effect there and sets UNMAPPED; the SRC and SIZE of acquisition, which the table of
GLB_ACCESS_SRC does not list, are free values (R290). Log 115 (DESIGN CHOICE). -/
def State.acqMoved (s : State) (i : Nat) : State :=
  let ws := s.acq.piece i
  let at1 := s.acq.pieceAt i
  if ws.length = 64 ∧ s.acq.moved = i then
    (if s.inLedger at1 256 then
      (s.mapGlb fun g =>
        g.errorBy s.pclk 1 (accessWord (s.free.toNat % 8) true (s.free.toNat / 8 % 4) 1) at1).drawn 1
    else s.dramPut at1 ws).mapAcq fun a => { a with moved := i + 1 }
  else s

/-- A read of a channel for a cycle of the interval in progress is still to complete, and is not late (R351). -/
def State.acqReading (s : State) (j d : Nat) : Bool :=
  let here := fun (x : Xfer) => match x with
    | .acqRead chans k => chans.contains j && k + d == s.cyc.k
    | _ => false
  s.arb.reqs.any (fun r => here r.xfer) || match s.arb.owner with
    | some o => here o.r.xfer
    | none => false

/-- Every sample of the cycle interval in progress has been read, or has been given up (R351, R353). -/
def State.cycleReady (s : State) : Bool :=
  let a := s.acq
  let e := a.cFirst + 2 ^ a.cLog
  decide (e ≤ s.cyc.k) && match s.cht.active with
    | some c => a.cycleChans.all fun j => match a.chanDiv c j with
      | some d =>
        let last := e - 1 - (e - 1 + d - field (a.ch.getD j 0) 30 28 % d) % d
        decide (last + d ≤ s.cyc.k) && (decide (last + d < s.cyc.k) || !s.acqReading j d)
      | none => true
    | none => true

/-- INTERVAL_END of the cycle stream or of the fast stream. -/
def execIntervalEnd (fast : Bool) (s : State) : Host.Outcome State Fault Refusal :=
  if !s.acq.recording then .next s
  else if fast then
    if s.acq.fFirst + 2 ^ s.acq.fLog * 1000 ≤ s.time then .next (s.mapAcq fun a => a.endFast s.time).acqPush else .next s
  else if s.cycleReady then .next (s.mapAcq fun a => a.endCycle s.time).acqPush
  else .next s

/-! ## Placement (R360) -/

/-- TRIGGER record. -/
def Acq.trigRec (a : Acq) : List Word :=
  [recHead 6 0 7, BitVec.ofNat 32 (a.trigCh + a.cond * 2 ^ 8 + a.tf * 2 ^ 16)] ++ twoWords a.tsamp.toNat
    ++ twoWords a.ttime.toNat ++ [BitVec.ofNat 32 a.tfrac]

/-- The ACQ_T registers: TTIME in 2^−8 ns, F and TSAMP. -/
def Acq.setT (a : Acq) (t : Int) (f : Nat) (tsamp : Word64) : Acq :=
  { a with ttime := BitVec.ofInt 64 (t / 256), tfrac := (t % 256).toNat, tf := f, tsamp := tsamp }

/-- The time placed, in 2^−8 ns. -/
def Acq.placed (a : Acq) : Int := a.ttime.toInt * 256 + a.tfrac

/-- The trigger is placed: the record enters the stream, the registers and the event follow. -/
def State.place (s : State) (t : Int) (f : Nat) (tsamp : Word64) (force : Bool) : State :=
  ((s.mapAcq fun a =>
    let a1 := a.setT t f tsamp
    let r := a1.trigRec
    let a2 := a1.marker s.time r
    let len := if a2.blockWords = [] then 1024 else a2.blockWords.length
    { a2 with
      state := .post, trigValid := true, trigAt := some (a2.blockN, len - r.length), placedAt := some (s.time, force)
      tblock := if a2.size = 0 then 0 else (a2.blockN - 1) % a2.size.toNat, evt := setBit a2.evt 0 }).acqPush).raise 7 0

/-- The trigger placed in this microsecond is replaced by one of an earlier TTIME (R363): its record in the stream, in DRAM too
where it has got there, and the registers. -/
def State.replace (s : State) (t : Int) (f : Nat) (tsamp : Word64) (force : Bool) : State :=
  match s.acq.trigAt with
  | some (n, off) =>
    let a1 := { s.acq.setT t f tsamp with placedAt := some (s.time, force) }
    let s1 := s.mapAcq fun _ => a1.patch n off a1.trigRec
    let at1 := s.acq.base.toNat + (n - 1) % s.acq.size.toNat * 4096 + 4 * off
    if 16 * (n - 1) + off / 64 < s.acq.moved then s1.dramPut at1 a1.trigRec else s1
  | none => s

/-- A trigger placed by FORCE, or by a condition, in the present microsecond at a later time than t (R363). -/
def State.beaten (s : State) (force : Bool) (t : Int) : Bool :=
  s.acq.state == .post && (match s.acq.placedAt with
    | some (u, b) => b == force && u / 1000 == s.time / 1000 && decide (t < s.acq.placed)
    | none => false)

/-- A condition is detected at a time. It is placed in ARMED. In the microsecond of a FORCE the earlier of the two is the
one placed (R363). -/
def State.detect (s : State) (t : Int) (f : Nat) (tsamp : Word64) : State :=
  if s.acq.state = .armed then s.place t f tsamp false
  else if s.beaten true t then s.replace t f tsamp false
  else s

/-! ## Calibration (R361) -/

/-- Sample period of a channel, ns. -/
def State.chanPeriod (s : State) (j : Nat) : Nat :=
  if 64 ≤ j then 1000
  else match s.cht.active with
    | some c => (s.acq.chanDiv c j).getD 1 * c.period
    | none => 0

/-- CAL_FAIL: the residual stays. -/
def Acq.calFail (a : Acq) : Acq := { a with state := .idle, evt := setBit a.evt 7, calRefT := none, calChT := none }

/-- The pair of a calibration judged where both firings have come. -/
def State.calPair (s : State) : State :=
  match s.acq.calRefT, s.acq.calChT with
  | some r, some p =>
    let d := r - p
    let j := s.acq.trigCh
    if s.chanPeriod j * 256 < d.natAbs then s.mapAcq Acq.calFail
    else s.mapAcq fun a =>
      { a with state := .idle, skRes := putAt a.skRes j (BitVec.ofInt 32 (crndDiv d 16)), evt := setBit a.evt 6
               calRefT := none, calChT := none }
  | _, _ => s

/-- The first placement on the channel. -/
def State.calChannel (s : State) (t : Int) : State :=
  if s.acq.calChT.isSome then s else (s.mapAcq fun a => { a with calChT := some t }).calPair

/-! ## Detectors (R359) -/

/-- A value as it is compared. -/
def Acq.compared (a : Acq) (j : Nat) (v : Word) : Int :=
  if a.levels j then (if bit v (field a.trig 15 11) then 1 else 0)
  else if a.signedCh j then v.toInt else v.toNat

/-- THR as it is compared. -/
def Acq.threshold (a : Acq) (j : Nat) : Int :=
  if a.levels j then 1 else if a.signedCh j then a.thr.toInt else a.thr.toNat

/-- The condition of a sample b: whether it is met, and whether it is one that can be interpolated from the sample before. -/
def Acq.fires (a : Acq) (b thr : Int) (prev : Option Int) : Bool × Bool :=
  match a.cond with
  | 0 => (decide (thr ≤ b), match prev with | some p => decide (p < thr) | none => false)
  | 1 => (decide (b ≤ thr), match prev with | some p => decide (thr < p) | none => false)
  | 2 => (decide (thr ≤ b) && a.primedUp, prev.isSome)
  | 3 => (decide (b ≤ thr) && a.primedDown, prev.isSome)
  | 4 => ((decide (thr ≤ b) && a.primedUp) || (decide (b ≤ thr) && a.primedDown), prev.isSome)
  | _ => (false, false)

/-- The edge detectors after a sample. -/
def Acq.prime (a : Acq) (b thr : Int) : Acq :=
  let h : Int := a.hyst.toNat
  { a with
    primedUp := decide (b ≤ thr - h) || (a.primedUp && decide (b < thr))
    primedDown := decide (thr + h ≤ b) || (a.primedDown && decide (thr < b)) }

/-- A fresh, unreduced sample of the channel of the trigger: value, nominal instant in ns and TSAMP (R359, R360). -/
def State.judge (s : State) (j : Nat) (v : Word) (at1 tsamp : Nat) : State :=
  if s.acq.trigCh ≠ j ∨ !(s.acq.recording || s.acq.state == .cal) then s
  else
    let a := s.acq
    let b := a.compared j v
    let thr := a.threshold j
    let prev := (a.chan! j).prev
    let (met, straddles) := a.fires b thr (prev.map fun p => a.compared j p.1)
    let res : Int := if a.state = .cal then 0 else (a.skRes.getD j 0).toInt
    let corr : Int := 16 * ((a.skOff.getD j 0).toInt + res)
    let s1 := s.mapAcq fun a =>
      { a.prime b thr with chan := setAt a.chan j fun c => { c with prev := some (v, at1, tsamp) } }
    if !met then s1
    else
      let plain : Int × Nat × Nat := ((at1 : Int) * 256 + corr, 0, tsamp)
      let (t, f, k) := match prev with
        | some (pv, pt, pk) =>
          let p := a.compared j pv
          if !straddles || a.levels j then plain
          else
            let f := if b = p then 0 else (crndDiv (256 * (thr - p) * (b - p).sign) (b - p).natAbs).toNat
            if f = 256 then plain
            else ((pt : Int) * 256 + corr + (f : Int) * ((at1 : Int) - pt), f, pk)
        | none => plain
      if a.state = .cal then s1.calChannel t else s1.detect t f (BitVec.ofNat 64 k)

/-- Trigger input n fires at a time: COND 5 places the trigger, and a calibration takes it as its reference (R360, R361).
TSAMP of such a placement is not stated. -/
def State.acqTrigger (s : State) (n t : Nat) : State :=
  if s.acq.state = .cal then
    if field s.acq.calRef 3 0 = n ∧ s.acq.calRefT.isNone then
      (s.mapAcq fun a => { a with calRefT := some ((t : Int) * 256) }).calPair
    else s
  else if s.acq.cond = 5 ∧ field s.acq.trig 19 16 = n ∧ s.acq.recording then
    (s.detect ((t : Int) * 256) 0 s.free).drawn 1
  else s

/-! ## Samples (R351, R352) -/

/-- A fast channel is enabled, or is the channel of the trigger. -/
def State.fastWanted (s : State) (n : Nat) : Bool := s.acq.fastEn n || s.acq.trigCh == 64 + n

/-- One fast channel at a whole microsecond. -/
def State.fastChan (s : State) (gpio : Word) (t n : Nat) : State :=
  let v := s.fastValue gpio n
  let j := 64 + n
  let a := s.acq
  let s1 := if a.recording && a.fastEn n && decide (a.fFirst ≤ t) then
      s.mapAcq fun a => a.sample j v t
    else s
  s1.judge j v t (t / 1000)

/-- FAST_SAMPLE: each fast channel of levels takes one sample at each whole microsecond of device time. The levels of the GPIO
inputs come with the sample at t(k); no command brings those that they have in between, which are free values.
Log 102 (DESIGN CHOICE). -/
def execFastSample (s : State) : Host.Outcome State Fault Refusal :=
  let t := s.time / 1000 * 1000
  if !(s.acq.recording || s.acq.state == .cal) || s.acq.fastAt == some t then .next s
  else
    let gpio : Word := if s.cyc.sampled && s.io.latTk == t then s.io.gpioIn else s.free.setWidth 32
    .next (forEach ((List.range 8).filter fun n => s.fastWanted n && s.acq.fastSrc n != 0)
      (fun n s => s.fastChan gpio t n) ((s.mapAcq fun a => { a with fastAt := some t }).drawn 1))

/-- The code of a conversion, held to its ends (R439). -/
def ainCode (microvolts : Int) : BitVec 16 := BitVec.ofInt 16 (clamp 0 65535 (crndDiv (microvolts * 65536) 1800000))

/-- AIN_CONVERSION_DONE: the code becomes the last complete code of the input, with its sample instant, the whole microsecond
800 ns before; the fast channels of the input take it as their sample of that instant (R352, R439). Log 35 (DEDUCED). -/
def execAinConversionDone (n : Nat) (microvolts : Int) (s : State) : Host.Outcome State Fault Refusal :=
  let t := (s.time - 800) / 1000 * 1000
  let s1 := s.mapIo fun io =>
    { io with ain := putAt io.ain n (ainCode microvolts), ainAt := putAt io.ainAt n (some t) }
  if !(s.acq.recording || s.acq.state == .cal) || s.io.ainAt.getD n none == some t then .next s1
  else
    .next (forEach ((List.range 8).filter fun i =>
      s.fastWanted i && s.acq.fastSrc i == 0 && field (s.acq.fch.getD i 0) 2 0 == n) (fun i s => s.fastChan 0 t i) s1)

/-- The clearing point of base cycle k: reads not completed are given up, and the entries of the channels whose sample
cycle ends are asked for (R351). -/
def State.acqClearing (s : State) (c : Charter) (k : Nat) : State :=
  let s1 := s.mapArb fun a =>
    { a with reqs := a.reqs.filter fun r => match r.xfer with
        | .acqRead _ _ => false
        | _ => true }
  if !(s.acq.recording || s.acq.state == .cal) then s1
  else
    let due := (List.range 64).filterMap fun j =>
      if (s.acq.recording && s.acq.cycleEn j) || s.acq.trigCh == j then
        match s.acq.chanDiv c j with
        | some d => if d ≤ k + 1 ∧ (k + 1) % d = field (s.acq.ch.getD j 0) 30 28 % d then some (j, k + 1 - d) else none
        | none => none
      else none
    forEach due (fun e s =>
      let id := field (s.acq.ch.getD e.1 0) 24 0
      (s.mapLedger fun l => l.lookup id).mapArb fun a => a.issue 22 (.acqRead [e.1] e.2) 1 false) s1

/-- A channel read completes: the sample is fresh when its stamp is that of its cycle and the next clearing point has not
come (R351). -/
def State.acqDone (s : State) (j k : Nat) (e : Word64) : State :=
  match s.cht.active with
  | none => s
  | some c => match s.acq.chanDiv c j with
    | none => s
    | some d =>
      if s.cyc.k ≠ k + d ∨ entryStamp e ≠ k % 2 ^ 24 then s
      else
        let v := entryValue e
        let a := s.acq
        let tk := s.cyc.tk - (s.cyc.k - k) * c.period
        let s1 := if a.recording && a.cycleEn j && decide (a.cFirst ≤ k) then
            s.mapAcq fun a => a.sample j v k
          else s
        s1.judge j v tk k

/-! ## The allotment and the blocks (R354, R355) -/

/-- A length that waits for its first instant, in place of one that would have begun there. -/
def addNext (l at1 : Nat) (next : List (Nat × Nat)) : List (Nat × Nat) := next.filter (fun e => decide (e.2 < at1)) ++ [(l, at1)]

/-- The least multiple of m at or after n. -/
def ceilTo (m n : Nat) : Nat := (n + m - 1) / m * m

/-- The interval of a stream doubled, from the first instant at or after the check, given as a device time and as the first base
cycle, that starts an interval of the new length; one of 2^16 is not (R354). -/
def Acq.double (a : Acq) (fast : Bool) (now k : Nat) : Acq :=
  let l := ((if fast then a.fNext else a.cNext).getLast?.map fun e => e.1).getD (if fast then a.fLog else a.cLog)
  if 16 ≤ l then a
  else if fast then
    ({ a with fNext := addNext (l + 1) (ceilTo (2 ^ (l + 1) * 1000) now) a.fNext, evt := setBit a.evt 2 }).align now true
  else ({ a with cNext := addNext (l + 1) (ceilTo (2 ^ (l + 1)) k) a.cNext, evt := setBit a.evt 2 }).align now false

/-- The first base cycle k, of those of full service, with t(k) at or after the present instant. -/
def State.nextBase (s : State) : Nat :=
  if s.cht.phase = .running ∧ s.cyc.service = 2 then
    s.cyc.k + (if s.time ≤ s.cyc.tk then 0 else (s.time - s.cyc.tk + s.period - 1) / s.period)
  else 0

/-- BANDWIDTH_CHECK: at each whole millisecond the bytes formed are held against the allotment (R354). -/
def execBandwidthCheck (s : State) : Host.Outcome State Fault Refusal :=
  let ms := s.time / 1000000
  if !s.acq.recording || s.acq.checkAt == some ms then .next s
  else
    let bw := if field s.acq.bw 15 0 = 0 then 1 else field s.acq.bw 15 0
    .next (s.mapAcq fun a =>
      let excess := decide (bw * 1000 < a.bytes) || decide (196608 < a.staged)
      let fast := decide (a.bytesC ≤ a.bytesF)
      let a1 := { a with bytes := 0, bytesC := 0, bytesF := 0, checkAt := some ms }
      if excess then a1.double fast s.time s.nextBase else a1).acqPush

/-- A block has been written: the write pointer and the sequence advance, and the counts that move the state follow. -/
def Acq.blockDone (a : Acq) (n : Nat) : Acq :=
  let size := a.size.toNat
  let w := a.written + 1
  let a1 := { a with
    written := w, bseq := BitVec.ofNat 32 n, wptr := if size = 0 then 0 else w % size
    wrapped := a.wrapped || decide (size ≤ w) }
  match a1.state with
  | .filling => if a1.prefill.toNat ≤ w then { a1 with state := .armed } else a1
  | .post => match a1.trigAt with
    | some (t, _) =>
      if t + a1.post.toNat ≤ n then
        { a1 with
          state := .done, blockWords := [], blocksOut := [], issued := 16 * n, moved := 16 * n, blockN := n
          evt := setBit a1.evt 1 }
      else a1
    | none => a1
  | _ => a1

/-- BLOCK_WRITTEN: the last byte of the oldest block handed out has completed on the fabric. -/
def execBlockWritten (s : State) : Host.Outcome State Fault Refusal :=
  match s.acq.blocksOut with
  | [] => .next s
  | (n, _) :: rest =>
    if s.acq.moved < 16 * n then .next s
    else
      let s1 := s.mapAcq fun a => ({ a with blocksOut := rest }).blockDone n
      if s1.acq.state = .done ∧ s.acq.state ≠ .done then .next ((s1.mapArb Arb.dropWrites).raise 7 1) else .next s1

/-! ## Commands (R357, R358, R361) -/

/-- A command not permitted, or a write with more than one bit. -/
def State.acqLocked (s : State) : State := s.mapAcq fun a => { a with evt := setBit a.evt 5 }

/-- REASON of a START that is refused; 0 where it is accepted. -/
def State.acqRefusal (s : State) : Nat :=
  let a := s.acq
  let n := a.size.toNat
  if a.base.toNat % 4096 ≠ 0 ∨ n < 16 ∨ 1048576 < n ∨ !s.dramOk a.base.toNat (n * 4096) then 1
  else if n < a.prefill.toNat + 1 + a.post.toNat then 2
  else if a.cycleChans.isEmpty && a.fastChans.isEmpty then 3
  else 0

/-- START accepted: a new stream. The values a channel repeats before its first fresh sample are not stated.
Log 79 (DEDUCED). -/
def State.acqBegin (s : State) : State :=
  let now := s.time
  let n := s.freeCount
  let k0 := if s.cht.phase = .running ∧ s.cyc.service = 2 then (if s.cyc.sampled then s.cyc.k + 1 else s.cyc.k) else 0
  (((s.mapArb Arb.dropWrites).mapAcq fun a =>
    let cl := min (field a.ivl 4 0) 16
    let fl := min (field a.ivl 12 8) 16
    let a1 : Acq := { a with
      state := if a.prefill = 0 then .armed else .filling
      trigValid := false, wrapped := false, dropped := 0, gap := 0, wptr := 0, bseq := 0, blocksOut := []
      blockWords := [], written := 0, issued := 0, moved := 0, trigAt := none, placedAt := none, bytes := 0, bytesC := 0,
      bytesF := 0
      cLog := cl, fLog := fl, cNext := [], fNext := [], cFirst := ceilTo (2 ^ cl) k0
      fFirst := ceilTo (2 ^ fl * 1000) now, fastAt := none, checkAt := some (now / 1000000)
      primedUp := false, primedDown := false
      chan := (List.range 72).map fun j =>
        { AcqChan.reset with lastMin := (Config.freeValue (n + 2 * j)).setWidth 32
                             lastMax := (Config.freeValue (n + 2 * j + 1)).setWidth 32 } }
    let mask := a.cycleChans.foldl (fun m j => m + 2 ^ j) 0
    let fmask := a.fastChans.foldl (fun m j => m + 2 ^ j) 0
    (a1.begin 1 now).marker now
      ([recHead 2 0 7, BitVec.ofNat 32 (cl + fl * 256)] ++ twoWords now ++ twoWords mask
        ++ [BitVec.ofNat 32 fmask])).acqPush).drawn 144

/-- START. -/
def State.acqStart (s : State) : State :=
  if s.acq.state ≠ .idle ∧ s.acq.state ≠ .done then s.acqLocked
  else
    let r := s.acqRefusal
    if r ≠ 0 then s.mapAcq fun a => { a with reason := r, evt := setBit a.evt 4 } else s.acqBegin

/-- STOP: a recording ends with the block in progress padded; a calibration ends in IDLE. Log 80 (DEDUCED). -/
def State.acqStop (s : State) : State :=
  if s.acq.state = .cal then s.mapAcq fun a => { a with state := .idle, calRefT := none, calChT := none }
  else if s.acq.recording then (s.mapAcq fun a => { a.close with state := .done }).acqPush
  else s.acqLocked

/-- FORCE: the trigger is placed at the present device time; its TSAMP is not stated. In the microsecond of a trigger placed
already the earlier of the two stands, and the other is ignored (R363). Log 80 (DEDUCED). -/
def State.acqForce (s : State) : State :=
  if s.acq.state = .armed then
    (s.place ((s.time : Int) * 256) 0 s.free true).drawn 1
  else if s.beaten false ((s.time : Int) * 256) then (s.replace ((s.time : Int) * 256) 0 s.free true).drawn 1
  else if s.acq.state == .post && (s.acq.placedAt.map fun e => e.1 / 1000) == some (s.time / 1000) then s
  else s.acqLocked

/-- CAL. -/
def State.acqCal (s : State) : State :=
  if s.acq.state = .idle ∨ s.acq.state = .done then
    s.mapAcq fun a =>
      { a with state := .cal, calStart := s.time, calRefT := none, calChT := none, primedUp := false, primedDown := false
               fastAt := none, chan := a.chan.map fun c => { c with prev := none } }
  else s.acqLocked

/-- ACQ_START. -/
def execAcqStart (_src : Source) (s : State) : Host.Outcome State Fault Refusal := .next s.acqStart
/-- ACQ_STOP. -/
def execAcqStop (_src : Source) (s : State) : Host.Outcome State Fault Refusal := .next s.acqStop
/-- FORCE. -/
def execForce (_src : Source) (s : State) : Host.Outcome State Fault Refusal := .next s.acqForce
/-- CAL. -/
def execCal (_src : Source) (s : State) : Host.Outcome State Fault Refusal := .next s.acqCal

/-- CAL_TIMEOUT: no pair within 1 s of CAL. -/
def execCalTimeout (s : State) : Host.Outcome State Fault Refusal :=
  if s.acq.state = .cal ∧ s.acq.calStart + 1000000000 ≤ s.time then .next (s.mapAcq Acq.calFail) else .next s

/-! ## The upload ring (R357, R362) -/

/-- The place of an entry of a length in the ring: its offset and the head after it. Log 81 (DEDUCED). -/
def Acq.upPlace (a : Acq) (len : Nat) : Option (Nat × Nat) :=
  let size := field a.upSize 20 0 * 1024
  let head := a.upHead.toNat
  let tail := a.upTail.toNat
  if head < tail then (if head + len < tail then some (head, head + len) else none)
  else if head + len < size then some (head, head + len)
  else if head + len = size ∧ tail ≠ 0 then some (head, 0)
  else if len < tail then some (0, len)
  else none

/-- An ACQ_DATA message goes into the upload ring as one entry, or is discarded for want of room. Log 81 (DEDUCED). -/
def State.upload (s : State) (port : Nat) (m : Msg) : State :=
  let size := field s.acq.upSize 20 0 * 1024
  let base := s.acq.upBase.toNat
  let w := [BitVec.ofNat 32 port, msgHead m.station m.kind m.payload.length] ++ m.payload
  if size = 0 then s
  else
    let drop := s.mapAcq fun a => { a with upDrop := a.upDrop + 1, evt := setBit a.evt 8 }
    if !s.dramOk base (size * 4) then
      if inBanks base || s.inLedger base (size * 4) then drop.errUnmapped .linkEngine true .w32 base else drop
    else match s.acq.upPlace w.length with
      | none => drop
      | some (off, head) =>
        let h := s.acq.upHead.toNat
        let s1 := if off = 0 ∧ h ≠ 0 ∧ h < size then s.dramPut (base + 4 * h) [0] else s
        let s2 := (List.range ((w.length + 63) / 64)).foldl (fun s _ => s.transfer 21) s1
        (s2.dramPut (base + 4 * off) w).mapAcq fun a => { a with upHead := BitVec.ofNat 32 head }

/-- A write of ACQ_UP_BASE_LO, ACQ_UP_BASE_HI or ACQ_UP_SIZE: the ring is empty from there on. -/
def State.upWrite (s : State) (addr : Nat) (v : Word) (lo : Word) : State :=
  s.mapAcq fun a =>
    let a1 := { a with upHead := 0, upTail := 0 }
    if addr = 0x40160604 then { a1 with upBase := v ++ lo }
    else if addr = 0x40160608 then { a1 with upSize := v &&& 0x1FFFFF }
    else a

/-- UPLOAD_RING_SET: a write of a register of the ring; _LO is kept until _HI is written (R11). -/
def execUploadRingSet (_src : Source) (addr : Nat) (value : Word) (s : State) : Host.Outcome State Fault Refusal :=
  if addr = 0x40160600 then .next (s.stageLo addr value)
  else .next (s.upWrite addr value (s.loOf 0x40160600))

end Sys2Proof.Machine
end

