-- ==== Sys2Proof/Machine/BlockFloat.lean ====
section
/-!
DEFINITION. Block floating point as the Afmin blocks use it (05_lane_datapath, R114 to R124; 06_axis_loops, R461):
mantissa and exponent, accumulators with a scale, the direct procedure that forms a stage, and the exponential and the
root that the runner and the blocks need. A value carries the flags that the operations it comes from have raised: they
join LFLG with the stage that the value goes into (R107, R116, R117).
-/
namespace Sys2Proof.Machine
open Sys2Proof

/-- A mantissa with its exponent: the value m × 2^(e−31) (R114). -/
structure Fl where
  m : Int
  e : Int
  f : LFlags := LFlags.none
  deriving DecidableEq, Repr

/-- An accumulator with its scale: the value a × 2^(sc−62) (R114). -/
structure Acc where
  a : Int
  sc : Int
  f : LFlags := LFlags.none
  deriving DecidableEq, Repr

/-- The zero of either form. -/
def Fl.zero : Fl := { m := 0, e := 0 }
/-- The accumulator that holds zero. -/
def Acc.zero : Acc := { a := 0, sc := 0 }

/-- LDA: a mantissa loaded has the scale of its exponent. -/
def Fl.acc (x : Fl) : Acc := { a := x.m * 2 ^ 31, sc := x.e, f := x.f }

/-- A product has the sum of the exponents as its scale. -/
def Fl.mul (x y : Fl) : Acc := { a := x.m * y.m, sc := x.e + y.e, f := x.f.or y.f }

/-- A term added: it is aligned by SHA to the scale of the accumulator, which is that of the first term; the alignment and
the sum keep 80 bits and set OVF where a bit is lost (R114, R117, R461). -/
def Acc.add (p q : Acc) : Acc :=
  let (t, g) := shaOf q.a (q.sc - p.sc)
  let (r, h) := shaOf (p.a + t) 0
  { a := r, sc := p.sc, f := ((p.f.or q.f).or g).or h }

/-- The negative of an accumulator. -/
def Acc.neg (p : Acc) : Acc := { p with a := -p.a }

/-- A term subtracted. -/
def Acc.sub (p q : Acc) : Acc := p.add q.neg

/-- The negative of a mantissa. -/
def Fl.neg (x : Fl) : Fl := { x with m := -x.m }

/-- The value times 2^k. -/
def Acc.shift (p : Acc) (k : Int) : Acc := { p with sc := p.sc + k }

/-- The value times 2^k. -/
def Fl.shift (x : Fl) (k : Int) : Fl := { x with e := if x.m = 0 then 0 else x.e + k }

/-- NRND: the accumulator as a normalised mantissa with its exponent, SAT where rounding reaches 2^31 (R116, R119); zero has
exponent 0 here. Log 24 (DESIGN CHOICE). -/
def Acc.fl (p : Acc) : Fl :=
  if p.a = 0 then { Fl.zero with f := p.f }
  else
    let s := exOf p.a
    let (m, g) := rnd32 p.a s true
    { m := m, e := p.sc - s, f := p.f.or g }

/-- The exponent at which the magnitude of an accumulator fills a mantissa: its scale less ex. -/
def Acc.exp (p : Acc) : Int := p.sc - exOf p.a

/-- A mantissa that rounding took to 2^31 stands as 2^30 at the next exponent (R59, R60). -/
def Fl.renorm (m e : Int) : Fl :=
  if m = 2147483648 then { m := 1073741824, e := e + 1 }
  else if m = -2147483648 then { m := -1073741824, e := e + 1 }
  else { m := m, e := e }

/-- An exact ratio n / d, d > 0, as a normalised mantissa rounded by crnd (R60, R461). -/
def Fl.ofRatio (n : Int) (d : Nat) : Fl :=
  if n = 0 ∨ d = 0 then Fl.zero
  else
    let e0 : Int := (bitLen n.natAbs : Int) - (bitLen d : Int)
    -- |n/d| lies in (2^(e0−1), 2^(e0+1)): the exponent is e0 or e0 + 1
    let big := if 0 ≤ e0 then d * 2 ^ e0.toNat ≤ n.natAbs else d ≤ n.natAbs * 2 ^ (-e0).toNat
    let e := if big then e0 + 1 else e0
    let sh := 31 - e
    let m := if 0 ≤ sh then crndDiv (n * 2 ^ sh.toNat) d else crndDiv n (d * 2 ^ (-sh).toNat)
    Fl.renorm m e

/-- An integer as a mantissa. -/
def Fl.ofInt (n : Int) : Fl := Fl.ofRatio n 1

/-- The quotient of two values as held (R461). -/
def Fl.div (x y : Fl) : Fl :=
  if y.m = 0 then { Fl.zero with f := x.f.or y.f }
  else
    let n := if y.m < 0 then -x.m else x.m
    { (Fl.ofRatio n y.m.natAbs).shift (x.e - y.e) with f := x.f.or y.f }

/-- The integer part of a square root, bit by bit from bit n − 1. -/
def isqrtBits (v : Nat) : Nat → Nat → Nat
  | 0, r => r
  | n + 1, r => isqrtBits v n (if (r + 2 ^ n) * (r + 2 ^ n) ≤ v then r + 2 ^ n else r)

/-- The integer part of a square root. -/
def isqrt (v : Nat) : Nat := isqrtBits v (bitLen v / 2 + 1) 0

/-- The root of a value as a normalised mantissa rounded by crnd (R461); 0 of a value that is not positive. -/
def Acc.sqrt (p : Acc) : Fl :=
  if p.a ≤ 0 then { Fl.zero with f := p.f }
  else
    -- the root has exponent e where its square lies in [2^(2e−2), 2^(2e))
    let x := p.exp
    let e := (x + 1) / 2
    let k := 2 * (31 - e) + (p.sc - 62)
    if 0 ≤ k then
      let v := p.a.toNat * 2 ^ k.toNat
      let r := isqrt v
      { Fl.renorm (if r * r + r < v then r + 1 else r) e with f := p.f }
    else
      let r := isqrt (p.a.toNat / 2 ^ (-k).toNat)
      { Fl.renorm (if (2 * r + 1) * (2 * r + 1) * 2 ^ (-k).toNat < 4 * p.a.toNat then r + 1 else r) e with f := p.f }

/-- The sign of x − y, exactly. -/
def Acc.cmp (p q : Acc) : Int :=
  let lo := min p.sc q.sc
  Int.sign (p.a * 2 ^ (p.sc - lo).toNat - q.a * 2 ^ (q.sc - lo).toNat)

/-- x < y as held. -/
def Fl.lt (x y : Fl) : Bool := x.acc.cmp y.acc < 0

/-- A value with flags of operations that were done beside it. -/
def Fl.raise (x : Fl) (g : LFlags) : Fl := { x with f := x.f.or g }
/-- The lesser. -/
def Fl.min (x y : Fl) : Fl := (if y.lt x then y else x).raise (x.f.or y.f)
/-- The greater. -/
def Fl.max (x y : Fl) : Fl := (if x.lt y then y else x).raise (x.f.or y.f)
/-- clamp (x, lo, hi). -/
def Fl.clamp (x lo hi : Fl) : Fl := (if x.lt lo then lo else if hi.lt x then hi else x).raise x.f
/-- The magnitude. -/
def Fl.abs (x : Fl) : Fl := if x.m < 0 then x.neg else x

/-- The value × 2^k rounded by crnd to an integer. -/
def Fl.scaled (x : Fl) (k : Int) : Int := crndShift x.m (x.e - 31 + k)

/-- The floor of the value. -/
def Fl.floor (x : Fl) : Int := floorShift x.m (x.e - 31)

/-- The mantissa of an integer in units of 2^−k. -/
def Fl.ofFixed (n : Int) (k : Nat) : Fl := (Fl.ofInt n).shift (-(k : Int))

/-! ## Constants (R461) -/

def cThird : Fl := Fl.ofRatio 1 3
def cSixth : Fl := Fl.ofRatio 1 6
def c24th : Fl := Fl.ofRatio 1 24
def c120th : Fl := Fl.ofRatio 1 120
/-- 1/√3: the root of the exact third. -/
def cInvSqrt3 : Fl := { m := 1239850262, e := 0 }
/-- √3/2. -/
def cSqrt3Half : Fl := { m := 1859775393, e := 0 }

/-! ## Stages (R121 to R124) -/

/-- A stage: exponent, output mantissas and state mantissas. -/
structure Stage where
  e : Int
  out : List Int
  st : List Int
  deriving DecidableEq, Repr

/-- The zero stage of a shape. -/
def Stage.zero (no ns : Nat) : Stage := { e := 0, out := List.replicate no 0, st := List.replicate ns 0 }

/-- Output element i of a stage; zero where there is none. -/
def Stage.el (s : Stage) (i : Nat) : Fl := { m := s.out.getD i 0, e := s.e }
/-- State i of a stage. -/
def Stage.state (s : Stage) (i : Nat) : Fl := { m := s.st.getD i 0, e := s.e }

/-- The mantissa of an element rounded once at an exponent, saturated. -/
def Acc.mant (p : Acc) (e : Int) : Int := clamp (-mMax) mMax (crndShift p.a (p.sc - 31 - e))

/-- A mantissa at an exponent above 127 shifted to 127 and saturated (R123). The rule names EXP for this and no other
flag: the saturation raises no SAT here. Log 24 (DESIGN CHOICE). -/
def mantAt127 (m e : Int) : Int := if e ≤ 127 then m else clamp (-mMax) mMax (m * 2 ^ (e - 127).toNat)

/-- The direct procedure over all elements: the greatest element sets the exponent, each is rounded once there, with SAT
where it saturates; then the limits: below −128 a zero stage with UNF, above 127 the exponent held and the mantissas
shifted, with EXP (R123, R124, R461). The flags that the elements carry are raised with it. -/
def Stage.form (out st : List Acc) : Stage × LFlags :=
  let carried := (out ++ st).foldl (fun g q => g.or q.f) LFlags.none
  let live := (out ++ st).filter fun p => p.a ≠ 0
  match live with
  | [] => (Stage.zero out.length st.length, carried)
  | p :: ps =>
    let e := ps.foldl (fun m q => max m q.exp) p.exp
    let sat := (out ++ st).any fun q => mMax < (crndShift q.a (q.sc - 31 - e)).natAbs
    if e < -128 then (Stage.zero out.length st.length, carried.or { LFlags.none with unf := true, sat := sat })
    else
      ({ e := if 127 < e then 127 else e, out := out.map (fun q => mantAt127 (q.mant e) e)
         st := st.map (fun q => mantAt127 (q.mant e) e) },
       carried.or { LFlags.none with exp := decide (127 < e), sat := sat })

/-- The words of a stage (R121). -/
def Stage.words (s : Stage) : List Word :=
  BitVec.ofNat 32 (lowBits 8 s.e) :: BitVec.ofNat 32 (s.out.length + s.st.length * 256)
    :: (s.out ++ s.st).map (BitVec.ofInt 32)

/-- A stage from its words. -/
def Stage.ofWords (ws : List Word) : Stage :=
  let shape := ws.getD 1 0
  let no := field shape 7 0
  let ns := field shape 15 8
  { e := signed 8 (field (ws.getD 0 0) 7 0)
    out := ((ws.drop 2).take no).map BitVec.toInt
    st := ((ws.drop (2 + no)).take ns).map BitVec.toInt }

/-- The words a stage of a shape word takes. -/
def stageWords (shape : Word) : Nat := 2 + field shape 7 0 + field shape 15 8

/-! ## BF parameters (R58 to R60) -/

/-- A BF vector of n: n mantissa words and one exponent word. -/
def bfVec (ws : List Word) (i n : Nat) : List Fl :=
  let e := signed 8 (field (ws.getD (i + n) 0) 7 0)
  (List.range n).map fun j => { m := (ws.getD (i + j) 0).toInt, e := e }

/-- A BF scalar at word i. -/
def bfAt (ws : List Word) (i : Nat) : Fl := (bfVec ws i 1).getD 0 Fl.zero

/-! ## Linear interpolation, sine and cosine -/

/-- The piecewise-linear table (xv, yv) at x, held at its ends (R182, R188). -/
def interp (xv yv : List Fl) (x : Fl) : Fl :=
  let n := xv.length
  let x0 := xv.getD 0 Fl.zero
  let xn := xv.getD (n - 1) Fl.zero
  if x.lt x0 then yv.getD 0 Fl.zero
  else if !x.lt xn then yv.getD (n - 1) Fl.zero
  else
    let i := ((List.range (n - 1)).find? fun i => x.lt (xv.getD (i + 1) Fl.zero)).getD 0
    let xi := xv.getD i Fl.zero
    let yi := yv.getD i Fl.zero
    let dx := (x.acc.sub xi.acc).fl
    let w := ((xv.getD (i + 1) Fl.zero).acc.sub xi.acc).fl
    let dy := ((yv.getD (i + 1) Fl.zero).acc.sub yi.acc).fl
    (yi.acc.add ((dx.div w).mul dy)).fl

/-! ## The exponential (R166, R204) -/

/-- Terms of exp (−y), y in units of 2^−96: n terms from the k-th. -/
def expTerms (y : Int) : Nat → Int → Int → Int → Int
  | 0, _, _, acc => acc
  | n + 1, term, k, acc =>
    let t := -(term * y / 2 ^ 96) / k
    expTerms y n t (k + 1) (acc + t)

/-- A number in units of 2^−96 squared n times. -/
def squareTimes : Nat → Int → Int
  | 0, v => v
  | n + 1, v => squareTimes n (v * v / 2 ^ 96)

/-- exp (−n / d) in units of 2^−96; a series after ten halvings. -/
def expNeg (n d : Nat) : Int :=
  if d = 0 then 0
  else if 1000 * d < n then 0
  else squareTimes 10 (expTerms ((n : Int) * 2 ^ 86 / (d : Int)) 24 (2 ^ 96) 1 (2 ^ 96))

end Sys2Proof.Machine
end

