-- ==== Sys2Proof/Machine/Compare.lean ====
section
/-!
DEFINITION. Position compare (09_feedback, R250 to R254): the behind check, the firing of local units on counted edges,
and the writes that arm a unit or change its V. The service of station units within a job stands in Machine/AxisJob.lean.
-/
namespace Sys2Proof.Machine
open Sys2Proof

/-! ## Units -/

/-- DIR of a unit: 0 positive, 1 negative, 2 either. -/
def Cmp.dirOf (c : Cmp) : Nat := field c.cfg 9 8
/-- ARM. -/
def Cmp.armed (c : Cmp) : Bool := bit c.cfg 12
/-- V of a local unit, a raw counter value. -/
def Cmp.v32 (c : Cmp) : Word := c.val.extractLsb' 0 32

/-- The crossing of R250 in a direction, from the differences to V before and after; the reserved direction has none. -/
def crossed (dir : Nat) (d0 d1 : Int) : Bool :=
  let up := decide (d0 < 0) && decide (0 ≤ d1)
  let down := decide (0 < d0) && decide (d1 ≤ 0)
  match dir with
  | 0 => up
  | 1 => down
  | 2 => up || down
  | _ => false

/-- V is behind the position (R251): `d` is the position less V, `neg` the present DIR flag of the feedback. -/
def behindOf (dir : Nat) (d : Int) (neg still : Bool) : Bool :=
  match dir with
  | 0 => decide (0 ≤ d)
  | 1 => decide (d ≤ 0)
  | 2 => !still && (if neg then decide (d ≤ 0) else decide (0 ≤ d))
  | _ => false

/-- The level of a pin after an action (R250). -/
def actLevel (act : Nat) (old : Bool) : Bool :=
  match act with
  | 0 => true
  | 1 => true
  | 2 => false
  | _ => !old

/-- A firing: the action, FIRED, BEHIND cleared, V moved by S, and ARM cleared where S is 0 (R250, R251). -/
def Cmp.fire (c : Cmp) (v : Word64) (time : Nat) : Cmp :=
  { c with
    level := actLevel (field c.cfg 11 10) c.level, fired := true, behind := false, time := time, val := v
    cfg := if c.step = 0 then clearBit c.cfg 12 else c.cfg }

/-- Local unit n. -/
def State.lcmp (s : State) (n : Nat) : Cmp := s.io.lcmp.getD n Cmp.reset
/-- Local unit n changed. -/
def State.mapLcmp (s : State) (n : Nat) (f : Cmp → Cmp) : State :=
  s.mapIo fun io => { io with lcmp := setAt io.lcmp n f }
/-- Station unit m. -/
def State.scmp (s : State) (m : Nat) : Cmp := s.io.scmp.getD m Cmp.reset
/-- Station unit m changed. -/
def State.mapScmp (s : State) (m : Nat) (f : Cmp → Cmp) : State :=
  s.mapIo fun io => { io with scmp := setAt io.scmp m f }

/-- BEHIND set in a local unit, with its event where EVT_BEHIND is 1. -/
def State.lcmpBehind (s : State) (n : Nat) : State :=
  let s1 := (s.mapLcmp n fun c => { c with behind := true }).mapIo fun io => { io with lBehind := setBit io.lBehind n }
  if bit (s.lcmp n).cfg 13 then s1.raise 5 n else s1

/-- BEHIND set in a station unit, with its event. -/
def State.scmpBehind (s : State) (m : Nat) : State :=
  let s1 := (s.mapScmp m fun c => { c with behind := true }).mapIo fun io => { io with sBehind := setBit io.sBehind m }
  if bit (s.scmp m).cfg 13 then s1.raise 5 (8 + m) else s1

/-! ## Local units (R252) -/

/-- STILL_MS of FBK_AXCFG in ns; 0 is read as 100 ms. -/
def stillNs (cfg : Word) : Nat := (if field cfg 31 16 = 0 then 100 else field cfg 31 16) * 1000000

/-- The standstill time of a local port: that of the axis and role that read it, else the 100 ms of reset. -/
def State.portStill (s : State) (n : Nat) : Nat :=
  match s.cht.active with
  | none => 100000000
  | some c =>
    let at1 := fun (w : Word) => isLocal w && field w 3 0 == n
    match c.axes.find? fun r => r.mode ≠ 2 && at1 r.primary with
    | some r => stillNs (s.axis r.axis).cfg0
    | none => match c.axes.find? fun r => bit r.loadFb 30 && at1 r.loadFb with
      | some r => stillNs (s.axis r.axis).cfg1
      | none => 100000000

/-- A local port stands still: no counted edge yet, or none for the standstill time; of an SSI port, no reading that moved the
counter for that time (R245, R251). -/
def State.portIdle (s : State) (n : Nat) : Bool :=
  let p := s.io.fb.getD n FbPort.reset
  if field p.cfg 1 0 = 2 then decide (p.ssiAt + s.portStill n ≤ s.time)
  else p.edges == 0 || decide (p.tLast + s.portStill n ≤ s.time)

/-- The behind check of a local unit (R251); a count that is INVALID is checked when it becomes valid (R252). -/
def State.lcmpCheck (s : State) (n : Nat) : State :=
  let c := s.lcmp n
  let src := field c.cfg 3 0
  let p := s.io.fb.getD src FbPort.reset
  if p.invalid then s
  else if behindOf c.dirOf (p.count - c.v32).toInt p.dir (s.portIdle src) then s.lcmpBehind n else s

/-- A change of the count of a port at an instant judged by one local unit: it fires on a crossing in its direction, and
its new V is checked (R250 to R252). -/
def State.lcmpEdge (s : State) (port : Nat) (old new : Word) (t n : Nat) : State :=
  let c := s.lcmp n
  if c.armed && field c.cfg 3 0 == port && crossed c.dirOf (old - c.v32).toInt (new - c.v32).toInt then
    let s1 := (s.mapLcmp n fun c => { (c.fire ((c.v32 + c.step).setWidth 64) t) with actAt := s.time }).mapIo fun io =>
      { io with lFired := setBit io.lFired n }
    let s2 := if bit c.cfg 14 then s1.raise 4 n else s1
    if c.step = 0 then s2 else s2.lcmpCheck n
  else s

/-- A change of the count of a port judged by every local unit. -/
def State.lcmpEdges (s : State) (port : Nat) (old new : Word) (t : Nat) : State :=
  forEach (List.range 8) (fun n s => s.lcmpEdge port old new t n) s

/-- The count of a port has become valid again: R251 is applied afresh to the units that watch it (R252). -/
def State.lcmpAfresh (s : State) (port : Nat) : State :=
  forEach (List.range 8)
    (fun n s => if (s.lcmp n).armed && field (s.lcmp n).cfg 3 0 == port then s.lcmpCheck n else s) s

/-! ## Station units -/

/-- The behind check of a station unit against the integer of POS_FB of its axis (R251). -/
def State.scmpCheck (s : State) (m : Nat) : State :=
  let c := s.scmp m
  let r := (s.axis (field c.cfg 7 0)).run
  let d := (r.posFb.extractLsb' 32 64).toInt - c.val.toInt
  if behindOf c.dirOf d (bit r.stat 27) r.prim.standstill then s.scmpBehind m else s

/-! ## Writes (R251, R252) -/

/-- A write of a register of a local unit takes effect: BEHIND clears, and where the write arms the unit or changes V it is
checked. Log 32 (DEDUCED). -/
def State.lcmpSet (s : State) (n : Nat) (r : CmpReg) (v : Word) : State :=
  if 8 ≤ n then s
  else match r with
    | .cfg =>
      let s1 := s.mapLcmp n fun c => { c with cfg := v &&& 0xFFF07F0F, behind := false }
      if bit v 12 then s1.lcmpCheck n else s1
    | .val =>
      let s1 := s.mapLcmp n fun c => { c with val := v.setWidth 64, behind := false }
      if v = (s.lcmp n).v32 then s1 else s1.lcmpCheck n
    | .valHi => s
    | .step => s.mapLcmp n fun c => { c with step := v, behind := false }

/-- A write of a register of a local unit waits for the next TCLK edge: an edge counted in the same TCLK cycle is judged against
the old setting (R252). Log 32 (DEDUCED). -/
def State.lcmpWrite (s : State) (n : Nat) (r : CmpReg) (v : Word) : State :=
  if 8 ≤ n then s else s.mapIo fun io => { io with cmpWrites := io.cmpWrites ++ [(n, r, v)] }

/-- A TCLK edge: the writes of local units that wait take effect, in their order (R252). -/
def State.cmpTick (s : State) : State :=
  if s.io.cmpWrites.isEmpty then s
  else forEach s.io.cmpWrites (fun (e : Nat × CmpReg × Word) (s : State) => s.lcmpSet e.1 e.2.1 e.2.2)
    (s.mapIo fun io => { io with cmpWrites := [] })

/-- A write of a register of a station unit. Log 32 (DEDUCED). -/
def State.scmpWrite (s : State) (m : Nat) (r : CmpReg) (v : Word) : State :=
  if 32 ≤ m then s
  else
    let lo := 0x40150404 + 0x20 * m
    match r with
    | .cfg =>
      let s1 := s.mapScmp m fun c => { c with cfg := v &&& 0xFFF37FFF, behind := false }
      if bit v 12 then s1.scmpCheck m else s1
    | .val => s.stageLo lo v
    | .valHi =>
      let x := s.pairOf lo v
      let s1 := s.mapScmp m fun c => { c with val := x, behind := false }
      if x = (s.scmp m).val then s1 else s1.scmpCheck m
    | .step => s.mapScmp m fun c => { c with step := v, behind := false }

/-- COMPARE_ARM: a write that arms a unit or sets its V or S; that of a local unit takes effect at the next TCLK edge. -/
def execCompareArm (_src : Source) (station : Bool) (unit : Nat) (reg : CmpReg) (value : Word) (s : State) :
    Host.Outcome State Fault Refusal :=
  .next (if station then s.scmpWrite unit reg value else s.lcmpWrite unit reg value)

/-- COMPARE_PULSE_END: the pulse of a local unit ends PULSE_W × 10 ns after its pin rose (R250); 0 is read as 1. -/
def execComparePulseEnd (unit : Nat) (s : State) : Host.Outcome State Fault Refusal :=
  let c := s.lcmp unit
  let w := (if field c.cfg 31 20 = 0 then 1 else field c.cfg 31 20) * 10
  if field c.cfg 11 10 = 0 && c.level && decide (c.actAt + w ≤ s.time) then
    .next (s.mapLcmp unit fun c => { c with level := false })
  else .next s

end Sys2Proof.Machine
end

