-- ==== Sys2Proof/Machine/Perturb.lean ====
section
/-!
DEFINITION. Perturbation (16_progress_and_perturbation, R391 to R396): the unlock, what takes effect at a clearing point,
the countdowns, the ends, and what the line asks of the registers in force.
-/
namespace Sys2Proof.Machine
open Sys2Proof

/-- PTB_STAT.UNLOCKED under a Charter: it is a test Charter whose section 0x0C names an authorisation accepted since reset
(R391, R413). -/
def State.unlocks (s : State) (c : Option Charter) : Bool :=
  match c with
  | some c => c.test && s.srm.authValid && s.srm.auths.any fun a => c.testAuth == some a
  | none => false

/-- A frame drop acts: MODE and COUNT are not 0. -/
def Ptb.dropMode (p : Ptb) : Nat := if field p.dropA 23 16 = 0 then 0 else field p.dropA 9 8

/-- A perturbation is acting (PTB_STAT.ACTIVE). -/
def Ptb.active (p : Ptb) : Bool :=
  (bit p.stretchA 16 && field p.stretchA 15 12 != 0) || p.dropMode != 0 || field p.bpA 27 8 != 0
    || field p.jitterA 11 0 != 0 || field p.leaseA 5 0 != 0 || field p.skewA 12 8 != 0 || p.pdlyA.any fun w => w != 0

/-- Every PTB_ register but PTB_EVT at its reset value, and nothing acting (R395). Log 82 (DEDUCED). -/
def Ptb.clear (p : Ptb) : Ptb := { Ptb.reset with evt := p.evt }

/-- PTB_DROP with its COUNT counted down once. -/
def dropCount (w : Word) : Word := if field w 23 16 = 0 then w else w - 0x00010000

/-- A base cycle of a frame drop has passed. -/
def Ptb.countDrop (p : Ptb) : Ptb :=
  if p.dropMode = 0 then p
  else
    let v := dropCount p.dropA
    { p with dropA := v, drop := if p.dropW then p.drop else v }

/-- A frame drop that has run its COUNT cycles ends. -/
def Ptb.endDrop (p : Ptb) : Ptb :=
  if p.dropActs && field p.dropA 23 16 == 0 then
    { p with
      dropActs := false, dropA := p.dropA &&& ~~~0x300, drop := if p.dropW then p.drop else p.drop &&& ~~~0x300
      evt := setBit p.evt 1 }
  else p

/-- A back-pressure episode that has run its CYCLES ends. -/
def Ptb.endBp (p : Ptb) : Ptb :=
  if p.bpActs && field p.bpA 27 8 == 0 then { p with bpActs := false, evt := setBit p.evt 2 } else p

/-- A clearing point: the drop in force counts down, and what has been written takes effect; a drop or an episode that has run out by
then has ended before another takes its place (R392, R395). A write of PTB_JITTER loads its seed. Log 82 (DEDUCED). -/
def Ptb.apply (p : Ptb) : Ptb :=
  let p0 := p.countDrop
  let p2 := if p.dropW then p0.endDrop else p0
  let p1 := if p.bpW then p2.endBp else p2
  let seed := if field p1.jitter 31 16 = 0 then 1 else BitVec.ofNat 16 (field p1.jitter 31 16)
  { p1 with
    stretchA := p1.stretch, jitterA := p1.jitter, leaseA := p1.lease, skewA := p1.skew, pdlyA := p1.pdly
    dropA := if p1.dropW then p1.drop else p1.dropA
    dropActs := if p1.dropW then field p1.drop 9 8 != 0 else p1.dropActs
    bpA := if p1.bpW then p1.bp else p1.bpA
    bpActs := if p1.bpW then field p1.bp 27 8 != 0 else p1.bpActs
    bpWait := if p1.bpW then true else p1.bpWait
    gen := if p1.jitterW then seed else p1.gen
    dropW := false, bpW := false, jitterW := false }

/-- An FCLK edge of a back-pressure episode: from its decision cycle on CYCLES counts down, but for the value that lasts until
cleared. -/
def Ptb.tick (p : Ptb) : Ptb :=
  let c := field p.bpA 27 8
  if c = 0 ∨ c = 0xFFFFF ∨ p.bpWait then p
  else { p with bpA := p.bpA - 0x100, bp := if p.bpW then p.bp else p.bp - 0x100 }

/-- DROP_DONE: a frame drop has run its COUNT cycles; MODE returns to 0 (R395). -/
def execDropDone (s : State) : Host.Outcome State Fault Refusal :=
  .next (s.mapPtb Ptb.endDrop)

/-! ## What a port asks (R393) -/

/-- Delay of received characters of a port, ns. -/
def Ptb.delayOf (p : Ptb) (port : Nat) : Nat := 10 * min (field (p.pdlyA.getD port 0) 9 0) 1000

/-- Words inserted into a frame slot of a port. -/
def Ptb.stretchOf (p : Ptb) (port slot : Nat) : Nat :=
  if bit p.stretchA 16 && field p.stretchA 4 0 == port && field p.stretchA 11 8 == slot then field p.stretchA 15 12 else 0

/-- Characters by which the stretch delays a frame slot of a port. -/
def Ptb.stretchBefore (p : Ptb) (port slot : Nat) : Nat :=
  if field p.stretchA 11 8 < slot then 4 * p.stretchOf port (field p.stretchA 11 8) else 0

/-- The frame drop that acts on a port: its mode, 0 where none does. -/
def Ptb.dropOf (p : Ptb) (port : Nat) : Nat := if field p.dropA 4 0 = port then p.dropMode else 0

/-- A return slot is dropped. -/
def Ptb.drops (p : Ptb) (port slot : Nat) : Bool :=
  p.dropOf port == 1 || (p.dropOf port == 2 && field p.dropA 15 12 == slot)

/-- LEASE as issue headers carry it. -/
def Ptb.leaseOf (p : Ptb) (lease : Nat) : Nat :=
  let cut := field p.leaseA 5 0
  if cut = 0 then lease else max (lease - cut) 2

/-- SKEW of a position of a port, UI. -/
def Ptb.skewOf (p : Ptb) (port pos : Nat) : Int :=
  if field p.skewA 4 0 = port ∧ field p.skewA 12 8 = pos then clamp (-2500) 2500 (signed 16 (field p.skewA 31 16)) else 0

end Sys2Proof.Machine
end

