-- ==== Sys2Proof/Machine/Teller.lean ====
section
/-!
DEFINITION. The Teller (10_teller): task flags and readiness, events and bindings, dispatch, the end of a run, delay
lists, task commands and interrupts to the cores.
-/
namespace Sys2Proof.Machine
open Sys2Proof

/-! ## Tasks (R259 to R262) -/

/-- The task of a number, if it is defined. -/
def Teller.task? (t : Teller) (n : Nat) : Option Task := t.tasks.find? (fun k => k.num == n)

/-- One task changed. -/
def Teller.mapTask (t : Teller) (n : Nat) (f : Task → Task) : Teller :=
  { t with tasks := t.tasks.map (fun k => if k.num == n then f k else k) }

/-- The flags satisfy the wait mask under ANY or ALL (R261). -/
def Task.satisfied (k : Task) : Bool :=
  if k.all then (k.flags &&& k.mask) == k.mask else (k.flags &&& k.mask) != 0

/-- A waiting task may become ready: its flags satisfy its mask, it has no run in service, and a RETURN event has reached
it where it is an AXIS_TASK (R261, R265). -/
def Task.canReady (k : Task) : Bool :=
  k.st == .waiting && !k.running && k.satisfied && (!k.axisTask || k.lastK.isSome)

/-- A waiting task that may become ready joins the tail of its ready list (R261). -/
def Teller.checkReady (t : Teller) (n : Nat) : Teller :=
  match t.task? n with
  | none => t
  | some k =>
    if k.canReady then
      { (t.mapTask n fun k => { k with st := .ready }) with ready := setAt t.ready k.prio (fun l => l ++ [n]) }
    else t

/-- A task taken off its ready list. -/
def Teller.unlist (t : Teller) (n : Nat) : Teller :=
  { t with ready := t.ready.map (fun l => l.filter (fun m => m != n)) }

/-- One flag of a task set, merging where it is set already (R262). -/
def Teller.setFlag (t : Teller) (n b : Nat) : Teller :=
  match t.task? n with
  | none => t
  | some k =>
    if bit k.flags b then { t with merged := t.merged + 1 }.checkReady n
    else (t.mapTask n fun k => { k with flags := setBit k.flags b }).checkReady n

/-- The run of a task would not come after its deadline: that of an AXIS_TASK serves the sample cycle of the last RETURN event
delivered, and a job whose deadline has passed is not run (R101, R265). -/
def Task.inTime (k : Task) : Bool :=
  !k.axisTask || (match k.lastK with
    | some m => decide (k.shut ≤ m)
    | none => false)

/-- A flag set by an event that arrived at a time, with the sample cycle that a RETURN event marks in the task (R265). The
event that completes what the task waits for gives the arrival that TLR_LAT_MAX measures from (R280). -/
def Teller.eventFlag (t : Teller) (n b now : Nat) (ret : Option Nat) : Teller :=
  match t.task? n with
  | none => t
  | some k =>
    let t1 := (t.mapTask n fun k => { k with lastK := ret.or k.lastK }).setFlag n b
    match t1.task? n with
    | none => t1
    | some k1 =>
      if !(k.satisfied && k.inTime) && k1.satisfied && k1.inTime then t1.mapTask n fun k => { k with arrived := some now } else t1

/-- The cycle task of a TASK record under its Charter (R259). -/
def taskOf (c : Charter) (r : TaskRec) : Task :=
  let ax := if r.axisTask then c.axis? r.flow else none
  { num := r.task, prio := r.prio, flow := r.flow,
    rate := match ax with | some a => a.rate | none => r.rate
    phase := match ax with | some a => a.phase | none => 0
    all := r.all, axisTask := r.axisTask, entry := r.entry, mask := r.mask, flags := 0, st := .waiting,
    running := false, runs := 0, lastK := none, arrived := none, changed := false, shut := 0 }

/-! ## The end of a run (R262, R269, R272, R281, R86) -/

/-- A run of a task ends: the task waits, or stays suspended, and becomes ready again at once where its flags satisfy its
mask. A task that a swap changed takes its new record with its flags cleared, and one that a swap removed is gone. -/
def Teller.endRun (t : Teller) (c : Option Charter) (n : Nat) : Teller :=
  match t.task? n with
  | none => t
  | some k =>
    if k.changed then
      match c.bind (fun c => (c.tasks.find? (fun r => r.task == n)).map (taskOf c)) with
      | some k' => t.mapTask n fun _ => k'
      | none => { t with tasks := t.tasks.filter (fun k => k.num != n) }
    else
      (t.mapTask n fun k =>
        { k with running := false, st := if k.st == .suspended then .suspended else .waiting }).checkReady n

/-- The run a lane has in service is over: the lane discards what it holds and waits in TAKE, the flow is free (R272). -/
def State.endRun (s : State) (n : Nat) : State :=
  match (s.lane n).job with
  | none => s
  | some j =>
    let s1 := s.mapLane n fun l =>
      { l with job := none, marks := [], rep := [], ret := [], stall := none, got := none, state := .waiting,
               waitSince := s.tim.now }
    let s2 := s1.mapTeller fun t =>
      ({ t with flows := t.flows.filter (fun f => f != j.flow) }).endRun s.charter j.task
    s2.mapArb fun a => { a with reqs := a.reqs.filter (fun r => r.xfer != Xfer.laneRead n) }

/-! ## Events (R263 to R266, R278) -/

/-- The rate divisor of a task under the Charter in force. -/
def taskDiv (c : Option Charter) (k : Task) : Nat :=
  match c with
  | some c => rateDiv c.baseRate k.rate
  | none => 1

/-- A binding delivers an event: RETURN only in the task's sample cycles, CLEARING only in the cycles before them (R264).
A RETURN event marks its sample cycle in the task (R265). -/
def Teller.deliver (t : Teller) (c : Option Charter) (e : Event) (now : Nat) (b : BindRec) : Teller :=
  if b.kind ≠ e.kind ∨ b.index ≠ e.index ∨ e.kind = 0x0A then t
  else
    match t.task? b.task with
    | none => t
    | some k =>
      let d := taskDiv c k
      if e.kind = 1 then
        if (e.k + 1) % d = k.phase then t.eventFlag b.task b.bit now none else t
      else if e.kind = 2 then
        if e.k % d = k.phase then t.eventFlag b.task b.bit now (some e.k) else t
      else t.eventFlag b.task b.bit now none

/-- Core bindings and the clearing bit set bits of TLR_IPENDc (R278). Log 91 (DEDUCED). -/
def Teller.pendCores (t : Teller) (e : Event) : Teller :=
  let t1 := if e.kind = 1 then { t with ipend := t.ipend.map (fun w => setBit w 0) } else t
  forEach t.cbind (fun w u =>
    if field w 7 0 ≠ 0 ∧ field w 7 0 = e.kind ∧ field w 23 8 = e.index ∧ field w 26 24 < 5 ∧ field w 31 27 ≠ 0 then
      { u with ipend := setAt u.ipend (field w 26 24) (fun p => setBit p (field w 31 27)) }
    else u) t1

/-- The interrupt of a core is asserted while an enabled bit of its TLR_IPENDc is set; cores 0 to 4 are APP0 to APP3 and SVC
(R278). -/
def State.coreInterrupt (s : State) (core : Nat) : Bool :=
  s.teller.ipend.getD core 0 &&& s.teller.ien.getD core 0 != 0

/-- EVENT_ARRIVAL: the oldest event raised arrives, and the bindings under which it was raised are applied in order
(R263, R266). On a unit without a Warrant no flag is set; core bindings act (R368). -/
def execEventArrival (s : State) : Host.Outcome State Fault Refusal :=
  match s.teller.raised with
  | [] => .next s
  | e :: rest =>
    let t0 := { s.teller with raised := rest }
    let binds := if e.gen = t0.gen then t0.binds else t0.oldBinds
    let t1 := if s.passive then t0 else forEach binds (fun b t => t.deliver s.charter e s.tim.now b) t0
    .next { s with teller := t1.pendCores e }

/-! ## Dispatch (R267, R268, R139, R112) -/

/-- The instant of the deadline of a job with a sample cycle and a divisor (R94). -/
def State.sampleDeadline (s : State) (k d : Nat) : Nat :=
  s.cyc.tk - (s.cyc.k - k) * s.period + (d - 1) * s.period + s.dlOffs

/-- The run of an AXIS_TASK would begin at or after the deadline of its job: it is removed and not handed off (R101, R281).
Log 105 (DESIGN CHOICE). -/
def State.taskLate (s : State) (k : Task) : Bool :=
  k.axisTask && (match k.lastK with
    | some m => decide (s.sampleDeadline m (taskDiv s.charter k) ≤ s.time)
    | none => false)

/-- The first ready task whose flow is free, in order of priority (R267). An AXIS_TASK that the deadline of its job has overtaken
(`late`) keeps its flags and its place on the list, and runs in a later sample cycle of the axis. Log 105 (DESIGN CHOICE). -/
def Teller.choose (t : Teller) (late : Task → Bool) : Option Task :=
  let free := fun n => match t.task? n with
    | some k => if t.flows.contains k.flow || !k.inTime || late k then none else some k
    | none => none
  (t.ready.flatMap id).findSome? free

/-- The task that the Teller chooses now; a unit that runs no tasks chooses none (R267, R281, R368). -/
def State.chosen (s : State) : Option Task := if s.passive then none else s.teller.choose s.taskLate

/-- The lane that has waited longest among those enabled, the lowest-numbered of equals (R268). -/
def State.waitingLane (s : State) : Option Nat :=
  let ok := (indexed s.lanes).filter fun p =>
    bit s.teller.laneEn p.1 && p.2.state == .waiting && p.2.job.isNone
  match ok with
  | [] => none
  | p :: ps => some (ps.foldl (fun b q => if q.2.waitSince < b.2.waitSince then q else b) p).1

/-- A page image put into data RAM at 0x1000, all else kept (R112). -/
def loadImage (ram : Mem 32) (pages : Mem 32) (axis : Nat) : Mem 32 :=
  ram.filter (fun c => c.1 < 0x400)
    ++ (pages.filter (fun c => axis * 1024 ≤ c.1 ∧ c.1 < (axis + 1) * 1024)).map
         (fun c => (c.1 - axis * 1024 + 0x400, c.2))
    ++ ram.filter (fun c => 0x800 ≤ c.1)

/-- The stamp of a task without AXIS_TASK: the cycle number at dispatch + 1, modulo 2^24 (R139). -/
def State.dispatchStamp (s : State) : Nat := (s.cyc.num + 1) % 2 ^ 24

/-- HAND_OFF: the chosen task goes to the waiting lane, which claims its flow; the flags of the mask go to the task
context and are cleared; for an AXIS_TASK the axis page is loaded (R262, R267, R268, R112). TLR_LAT_MAX keeps the longest
time from arrival, in CCLK cycles (R280). With dispatch jitter on, the generator moves to a state spec/ does not give. -/
def execHandOff (s : State) : Host.Outcome State Fault Refusal :=
  match s.chosen, s.waitingLane with
  | some k, some n =>
    let ctx := k.flags &&& k.mask
    let kk := if k.axisTask then k.lastK.getD 0 else s.cyc.num + 1
    let job : Job :=
      { task := k.num, flow := k.flow, axis := if k.axisTask then some k.flow else none, k := kk,
        stamp := if k.axisTask then kk % 2 ^ 24 else s.dispatchStamp, flags := ctx, d := taskDiv s.charter k,
        handedAt := s.tim.now, phase := .handed, next := none, base := none, n15 := 0,
        placed := s.cht.placed }
    let lat := match k.arrived with
      | some a => if s.clk.derated then (s.tim.now - a) * 5 / 6 else s.tim.now - a
      | none => 0
    let t1 := (s.teller.unlist k.num).mapTask k.num fun k =>
      { k with flags := k.flags &&& ~~~k.mask, st := .service, running := true, runs := k.runs + 1, arrived := none }
    let t2 := { t1 with flows := k.flow :: t1.flows, latMax := BitVec.ofNat 32 (max t1.latMax.toNat lat) }
    let s1 := { s with teller := t2 }
    let s2 := s1.mapLane n fun l =>
      { l with job := some job, state := if s.reduced then .holding else .running,
               ram := if k.axisTask then loadImage l.ram s.pages k.flow else l.ram }
    let s3 := if k.axisTask then s2.mapAxis k.flow fun a => { a with began := a.began || a.jobK == kk } else s2
    if field s.ptb.jitterA 11 0 = 0 then .next s3
    else .next ((s3.mapPtb fun p => { p with gen := s.free.setWidth 16 }).drawn 1)
  | _, _ => .next s

/-- COMMIT_COMPLETE: the commit of a lane's job is complete; the flow is free, the lane waits, and the TASK_DONE event
of the task is raised (R272, R263). Log 1 (DESIGN CHOICE). -/
def execCommitComplete (lane : Nat) (s : State) : Host.Outcome State Fault Refusal :=
  match (s.lane lane).state, (s.lane lane).job with
  | .committing, some j => .next ((s.endRun lane).raise 0x0B j.task)
  | _, _ => .next s

/-! ## Delay lists (R275 to R277) -/

/-- An entry put into a list in due order, after entries of the same due time. -/
def insertDelay (e : Delay) : List Delay → List Delay
  | [] => [e]
  | d :: t => if e.due < d.due then e :: d :: t else d :: insertDelay e t

/-- The entries of one list at a tick: those due are taken, and the periodic ones stand again at due time plus period
(R275). -/
def tickList (us : Nat) (l : List Delay) : List Delay × List Delay :=
  let due := l.filter (fun e => e.due ≤ us)
  let kept := l.filter (fun e => us < e.due)
  (due, (due.filter (fun e => e.period ≠ 0)).foldl
    (fun k e => insertDelay { e with due := e.due + e.period } k) kept)

/-- The Teller's 1 µs tick: due entries of DL0 to DL7 are taken in order (R275). -/
def Teller.tick (t : Teller) (us : Nat) : Teller :=
  { t with dueQ := t.dueQ ++ t.lists.flatMap (fun l => (tickList us l).1),
           lists := t.lists.map (fun l => (tickList us l).2) }

/-- DELAY_ENTRY_FIRE: the oldest entry taken by a tick sets its flag (R275). -/
def execDelayEntryFire (s : State) : Host.Outcome State Fault Refusal :=
  match s.teller.dueQ with
  | [] => .next s
  | e :: rest => .next (s.mapTeller fun t =>
      if s.passive then { t with dueQ := rest } else ({ t with dueQ := rest }).eventFlag e.task e.flag s.tim.now none)

/-- A refusal recorded in TLR_ERR and TLR_EVT.ERR. -/
def Teller.fail (t : Teller) (b : Nat) : Teller := { t with err := setBit t.err b, evt := setBit t.evt 3 }

/-- The list with the fewest entries, the lowest-numbered of equals (R276). Log 85 (DEDUCED). -/
def Teller.shortList (t : Teller) : Nat :=
  ((indexed t.lists).foldl (fun b p => if p.2.length < b.2 then (p.1, p.2.length) else b) (0, 257)).1

/-- The periodic entry of a TIMER binding, due at the next whole multiple of its period (R276). Log 85 (DEDUCED). -/
def Teller.addTimer (t : Teller) (us : Nat) (b : BindRec) : Teller :=
  if b.kind ≠ 0x0A then t
  else
    let e : Delay := { task := b.task, flag := b.bit, due := (us / b.index + 1) * b.index, period := b.index,
                       timer := true }
    { t with lists := setAt t.lists t.shortList (insertDelay e) }

/-- INSERT: an entry from TLR_DLY_TASK, _DUE and _PERIOD; a full list leaves it out and sets DELAY_FULL (R277). -/
def execInsert (_src : Source) (s : State) : Host.Outcome State Fault Refusal :=
  .next (s.mapTeller fun t =>
    let n := field t.dlyTask 10 0
    let li := field t.dlyTask 26 24
    let e : Delay := { task := n, flag := field t.dlyTask 20 16, due := t.dlyDue.toNat,
                       period := field t.dlyPeriod 15 0, timer := false }
    if (t.task? n).isNone then t.fail 2
    else if 256 ≤ (t.lists.getD li []).length then { t with evt := setBit t.evt 2 }
    else { t with lists := setAt t.lists li (insertDelay e) })

/-- CANCEL: every entry of the named list with the named task and flag leaves it (R277). -/
def execCancel (_src : Source) (s : State) : Host.Outcome State Fault Refusal :=
  .next (s.mapTeller fun t =>
    let n := field t.dlyTask 10 0
    let b := field t.dlyTask 20 16
    if (t.task? n).isNone then t.fail 2
    else { t with lists := setAt t.lists (field t.dlyTask 26 24)
                    (fun l => l.filter fun e => !(e.task == n && e.flag == b)) })

/-! ## Task commands (R261, R281) -/

/-- A command on the task of TLR_TASKSEL; BAD_CMD where it is not defined. -/
def taskCmd (f : Nat → Task → Teller → Teller) (s : State) : State :=
  s.mapTeller fun t =>
    let n := field t.taskSel 10 0
    match t.task? n with
    | none => t.fail 2
    | some k => f n k t

/-- SUSPEND: the task leaves its ready list, or stays out after its run. -/
def execSuspend (_src : Source) (s : State) : Host.Outcome State Fault Refusal :=
  .next (taskCmd (fun n _ t => (t.unlist n).mapTask n fun k => { k with st := .suspended }) s)

/-- RESUME: a suspended task returns to waiting, or becomes ready at once (R281). -/
def execResume (_src : Source) (s : State) : Host.Outcome State Fault Refusal :=
  .next (taskCmd (fun n k t =>
    if k.st == .suspended then
      (t.mapTask n fun k => { k with st := if k.running then .service else .waiting }).checkReady n
    else t) s)

/-- SETFLAGS: FLAGS := FLAGS OR TLR_TASKARG, one setting for each bit (R262). -/
def execSetflags (_src : Source) (s : State) : Host.Outcome State Fault Refusal :=
  if s.passive then .next s else .next (taskCmd (fun n k t =>
    let both := (List.range 32).filter fun i => bit k.flags i && bit t.taskArg i
    let t1 := { t with merged := t.merged + BitVec.ofNat 32 both.length }
    (t1.mapTask n fun k => { k with flags := k.flags ||| t.taskArg }).checkReady n) s)

/-- CLRFLAGS: FLAGS := FLAGS AND NOT TLR_TASKARG; a ready task whose mask is then not satisfied waits, and the event
that made it ready makes it ready no more (R261, R280). -/
def execClrflags (_src : Source) (s : State) : Host.Outcome State Fault Refusal :=
  .next (taskCmd (fun n k t =>
    let c := { k with flags := k.flags &&& ~~~t.taskArg }
    let k' := if c.satisfied then c else { c with arrived := none }
    if k.st == .ready && !k'.satisfied then (t.unlist n).mapTask n fun _ => { k' with st := .waiting }
    else t.mapTask n fun _ => k') s)

/-- TLR_TAKE_READ: a read of TLR_TAKE returns zero and sets CORE_TAKE (R274). -/
def execTlrTakeRead (_src : Source) (s : State) : Host.Outcome State Fault Refusal :=
  .next ({ s with readData := 0 }.mapTeller fun t => t.fail 1)

/-- SOFTWARE_EVENT: each one of a write to TLR_SETEV raises its SOFTWARE event, lowest bit first (R279). -/
def execSoftwareEvent (_src : Source) (value : Word) (s : State) : Host.Outcome State Fault Refusal :=
  .next (forRange 32 (fun b s => if bit value b then s.raise 0x09 b else s) s)

end Sys2Proof.Machine
end

