-- ==== Sys2Proof/Machine/Clocks.lean ====
section
/-!
DEFINITION. Clocks and time (02_clocks_and_time): the root PLL and its reference, derating, device time and its slew,
plant time, the calendar of the always-on domain, captures, the device reset that several causes share, and the TCLK
edge that passes on an empty queue.
-/
namespace Sys2Proof.Machine
open Sys2Proof

/-! ## Device reset (R13, R398) -/

/-- TIM at device reset: the always-on registers keep their values (R13, R44). -/
def Tim.afterReset (t : Tim) : Tim :=
  { Tim.reset with
    calSec := t.calSec, calSub := t.calSub, calTrim := t.calTrim, calFrac := t.calFrac, trimAcc := t.trimAcc,
    carryDue := t.carryDue, calSet := t.calSet, calOk := t.calOk, pfail := t.pfail, vbak := t.vbak }

/-- The Strongroom at device reset: OTP stays, and so do JTAG_LOCKOUT (R402) and, until its zeroisation, the key RAM.
Log 11 (DEDUCED). -/
def Srm.afterReset (r : Srm) : Srm :=
  { Srm.reset with lockout := r.lockout, keyRam := r.keyRam, slots := r.slots, devId := r.devId, vendorHash := r.vendorHash }

/-- Content of the newest live record of a type in the journal, of one axis where it is an AXIS record. -/
def Dbk.journalled (d : Dbk) (type : Nat) (axis : Word) : List Word :=
  match d.journal.reverse.find? fun r => r.type == type && r.live && (type != 7 || r.content.getD 0 0 == axis) with
  | some r => r.content
  | none => []

/-- Two words of a record as one number. -/
def pairAt (l : List Word) (i : Nat) : Nat := (l.getD i 0).toNat + (l.getD (i + 1) 0).toNat * 2 ^ 32

/-- The Daybook at device reset: what lies in flash and in the always-on domain stays; entries not yet journalled are
gone, and power-on seconds and the temperature bins go on from their records in the journal, so that at most an hour of them
is lost (R424 to R426, R429). Log 93 (DEDUCED). -/
def Dbk.afterReset (d : Dbk) : Dbk :=
  { Dbk.reset with
    region := d.region, erases := d.erases, epochAo := d.epochAo, poh := BitVec.ofNat 64 (pairAt (d.journalled 1 0) 0)
    journal := d.journal, epoch := d.epoch, vcore := d.vcore, derated := d.derated, brownOuts := d.brownOuts
    powerCycles := d.powerCycles, seq := d.seq, ckptNew := d.ckptNew, ckptOld := d.ckptOld, erased := d.erased
    tjHist := (List.range 38).map fun i => ((d.journalled 2 0).getD i 0).toNat * 60 }

/-- An axis at device reset: its counts go on from its open Daybook record (R424). -/
def Axis.afterReset (d : Dbk) (a : Nat) : Axis :=
  let w := d.journalled 7 (BitVec.ofNat 32 a)
  { Axis.reset with
    dbkSerial := BitVec.ofNat 64 (pairAt w 1), travel := pairAt w 3, reversals := (w.getD 7 0).toNat
    energised := (w.getD 8 0).toNat * 10 ^ 9, faults := (List.range 7).map fun i => (w.getD (9 + i) 0).toNat }

/-- Local I/O at device reset: the levels at the input pins are not the device's. -/
def Local.afterReset (io : Local) : Local :=
  { Local.reset with
    gpioIn := io.gpioIn
    fb := io.fb.map fun p => { FbPort.reset with levels := p.levels, pins := p.pins }
    trg := io.trg.map fun t => { Trg.reset with level := t.level } }

/-- A device reset: every block but the always-on domain, the flash, OTP and DRAM takes its reset values, and CAUSE is
recorded. The queue, the board and the model's own count of free values are no part of the device (R398). Log 11 (DEDUCED). -/
def State.deviceReset (s : State) (cause : Nat) (held : Bool) : State :=
  { State.reset with
    pending := s.pending, readData := s.readData, freeCount := s.freeCount, dramMib := s.dramMib, dram := s.dram
    tim := s.tim.afterReset, srm := s.srm.afterReset, dbk := s.dbk.afterReset, io := s.io.afterReset
    axes := (List.range 256).map (Axis.afterReset s.dbk), par := { Par.reset with unit := s.par.unit }
    bst :=
      { Bst.reset with
        cause := cause, inReset := held, hold := s.bst.hold, rom := s.bst.rom, image := s.bst.image, fwOk := s.bst.fwOk } }

/-! ## Reference and root PLL (R30, R31) -/

/-- REF_LOST: the PLL enters holdover; REF_LOST, HOLDOVER and the event are set. LOCK, locked to REFCLK, is 0 in
holdover. A reference lost again while the PLL relocks ends the relocking. -/
def execRefLost (s : State) : Host.Outcome State Fault Refusal :=
  if s.clk.lock || s.clk.relocking then
    .next (s.mapClk fun c =>
      { c with refLost := true, holdover := true, lock := false, relocking := false, evt := setBit c.evt 0 })
  else .next s

/-- HOLDOVER_LIMIT: 10 ms without a reference. -/
def execHoldoverLimit (s : State) : Host.Outcome State Fault Refusal :=
  if s.clk.holdover && s.clk.refLost then .next (s.mapClk fun c => { c with evt := setBit c.evt 2 }) else .next s

/-- REFCLK_RETURN: the reference is back and the PLL begins to relock. -/
def execRefclkReturn (s : State) : Host.Outcome State Fault Refusal :=
  if s.clk.holdover && s.clk.refLost then
    .next (s.mapClk fun c => { c with refLost := false, relocking := true })
  else .next s

/-- REF_BACK: the PLL has relocked; holdover ends. The measured REFCLK offset is a free value. Log 43 (DESIGN CHOICE). -/
def execRefBack (s : State) : Host.Outcome State Fault Refusal :=
  if s.clk.relocking then
    .next ((s.mapClk fun c =>
      { c with lock := true, holdover := false, refLost := false, relocking := false, evt := setBit c.evt 1,
               refOffs := s.free.setWidth 16 }).drawn 1)
  else .next s

/-- PLL_LOCK_LOSS: lock lost outside holdover resets the device (R31, R398). -/
def execPllLockLoss (s : State) : Host.Outcome State Fault Refusal :=
  if s.clk.lock && !s.clk.holdover then .next (s.deviceReset 3 false) else .next s

/-! ## Derating (R32 to R34, R429) -/

/-- A write of CLK_DERATE: TARGET is acted on later. TARGET 0 after a derating of the planner is an override (R429).
A second write before the clearing point replaces the first: R32 does not say what becomes of two.
Log 101 (DESIGN CHOICE). Log 44 (DEDUCED). -/
def State.derateWrite (s : State) (v : Word) : State :=
  let s1 := s.mapClk fun c => { c with derate := v &&& 1, pending := some (bit v 0) }
  if s.age.planned && !bit v 0 then
    s1.mapAge fun a => { a with overridden := true, planned := false, evt := setBit a.evt 7 }
  else s1

/-- CLK_DERATE_WRITE. -/
def execClkDerateWrite (_src : Source) (value : Word) (s : State) : Host.Outcome State Fault Refusal :=
  .next (s.derateWrite value)

/-- The divisor change: ACLK and CCLK together, DERATED and DERATE_DONE (R32). A derating that the planner made is
recorded in the Daybook (R420). Log 44 (DEDUCED). -/
def State.derateChange (s : State) (b : Bool) : State :=
  let s1 := s.mapClk fun c => { c with derated := b, pending := none, evt := setBit c.evt 3 }
  if s.age.planned then s1.mapDbk fun d => { d with derated := b } else s1

/-- A pending derate request at a clearing point: made where the Charter that runs from it is derate-safe (R32). One that is not
made leaves no derating of the planner behind it (R420). -/
def State.derateAtClearing (s : State) (safe : Bool) : State :=
  match s.clk.pending with
  | none => s
  | some b =>
    if safe then s.derateChange b
    else (s.mapClk fun c => { c with pending := none, evt := setBit c.evt 4 }).mapAge fun a =>
      { a with planned := a.planned && s.clk.derated }

/-- DERATE_IDLE_CHANGE: with no Charter active and no reduced service the change is made within 1 µs (R34). -/
def execDerateIdleChange (s : State) : Host.Outcome State Fault Refusal :=
  match s.clk.pending with
  | some b => if s.cht.active.isNone && !s.reduced then .next (s.derateChange b) else .next s
  | none => .next s

/-! ## The 1 µs tick and plant time (R50, R51, R263, R275) -/

/-- A plant step added to plant time (R51). -/
def Tim.addStep (t : Tim) : Tim :=
  match t.plantStep with
  | some v => { t with plant := t.plant + BitVec.ofInt 96 (v.toInt * 2 ^ 32), plantStep := none }
  | none => t

/-- The TIMER events of the core bindings that fall on a tick, each period once (R263). -/
def State.timerEvents (s : State) (us : Nat) : State :=
  let ps := (s.teller.cbind.filter fun w => field w 7 0 == 0x0A).map fun w => field w 23 8
  forEach ps.eraseDups (fun p s => if p ≠ 0 ∧ us % p = 0 then s.raise 0x0A p else s) s

/-- TICK_1US: the pending plant step is added; the delay lists give up their due entries; TIMER events are raised. -/
def execTick1us (s : State) : Host.Outcome State Fault Refusal :=
  let us := s.time / 1000
  let s1 := (s.mapTim Tim.addStep).mapTeller fun t => if s.passive then t else t.tick us
  .next (s1.timerEvents us)

/-- PLANT_STEP_WRITE: the value waits for the next tick; a second value replaces it (R51). -/
def execPlantStepWrite (_src : Source) (value : Word) (s : State) : Host.Outcome State Fault Refusal :=
  .next (s.mapTim fun t => { t with plantStep := some value })

/-- A value for TIM_PLANT_RATE held within ±2,147,484 (R51). -/
def plantRateSat (v : Word) : Word := BitVec.ofInt 32 (clamp (-2147484) 2147484 v.toInt)

/-! ## The calendar (R44 to R48, R434) -/

/-- The calendar takes the value set by software; a second carry due at the same edge is discarded (R45). Log 41 (DEDUCED). -/
def Tim.takeSet (t : Tim) : Tim :=
  match t.calSet with
  | some v => { t with calSec := v, calSub := 0, calFrac := 0, carryDue := false, calSet := none, calOk := true }
  | none => t

/-- The seconds advance (R44). -/
def Tim.second (t : Tim) : Tim := { t with calSec := t.calSec + 1, calSub := 0, carryDue := false }

/-- CALENDAR_SET: the write of TIM_CAL_SET_HI takes effect with the last TIM_CAL_SET_LO (R11, R45); none while VBAK is
below 2.0 V (R434). -/
def State.calendarSet (s : State) (hi : Word) : State :=
  let lo := match s.glb.loWritten.find? (fun p => p.1 == 0x40020038) with
    | some p => p.2
    | none => 0
  if s.tim.vbak then
    s.mapTim fun t => { t with calSet := some (BitVec.ofNat 48 (lo.toNat + field hi 15 0 * 2 ^ 32)) }
  else s

/-- CALENDAR_SET. -/
def execCalendarSet (_src : Source) (hi : Word) (s : State) : Host.Outcome State Fault Refusal :=
  .next (s.calendarSet hi)

/-- CALENDAR_SET_APPLY: the next 32.768 kHz edge after a set. -/
def execCalendarSetApply (s : State) : Host.Outcome State Fault Refusal := .next (s.mapTim Tim.takeSet)

/-- CALENDAR_SECOND: the sub-second count completes a second; where a set value waits for that same edge it is taken and
the carry discarded (R44, R45). Nothing runs without VBAK. Log 41 (DEDUCED). -/
def execCalendarSecond (s : State) : Host.Outcome State Fault Refusal :=
  if !s.tim.vbak then .next s
  else if s.tim.calSet.isSome then .next (s.mapTim Tim.takeSet)
  else .next (s.mapTim Tim.second)

/-- CAPTURE: a capture is requested and DONE cleared (R47). -/
def execCapture (_src : Source) (s : State) : Host.Outcome State Fault Refusal :=
  .next (s.mapTim fun t => { t with capReq := true, capDone := false })

/-- CAPTURE_DONE: at the next 32.768 kHz edge the calendar, the timescale of R37 and plant time are latched together
(R47). The calendar reads 0 while VBAK is below 2.0 V (R434). -/
def execCaptureDone (s : State) : Host.Outcome State Fault Refusal :=
  if s.tim.capReq then
    .next (s.mapTim fun t =>
      { t with
        capReq := false, capDone := true, capDev := BitVec.ofNat 64 s.time, capPlant := t.plant.extractLsb' 32 64
        capSec := if t.vbak then t.calSec else 0, capSub := if t.vbak then t.calSub else 0 })
  else .next s

/-- VBAK_LOST: the always-on domain resets; its registers read 0 and take no write until VBAK is back (R13, R44, R434,
R429). -/
def execVbakLost (s : State) : Host.Outcome State Fault Refusal :=
  .next ((s.mapTim fun t =>
      { t with calSec := 0, calSub := 0, calTrim := 0, calFrac := 0, trimAcc := 0, carryDue := false, calSet := none,
               calOk := false, pfail := 0, vbak := false }).mapDbk fun d => { d with epochAo := 0, evt := setBit d.evt 4 })

/-- VBAK_RESTORE: the always-on domain runs again from its reset values (R434). -/
def execVbakRestore (s : State) : Host.Outcome State Fault Refusal :=
  .next (s.mapTim fun t => { t with vbak := true })

/-! ## Brown-out (R48, R433) -/

/-- BROWN_OUT: TIM_PFAIL takes the calendar seconds, and the device resets and stays in reset until RESET_RELEASE. -/
def execBrownOut (s : State) : Host.Outcome State Fault Refusal :=
  let s1 := if s.tim.vbak then s.mapTim fun t => { t with pfail := t.calSec } else s
  .next ((s1.mapDbk fun d => { d with brownOuts := d.brownOuts + 1 }).deviceReset 2 true)

/-! ## One TCLK edge -/

/-- One tick of the calendar: the ticks advance, and a completed second carries. -/
def Tim.calTick (t : Tim) : Tim :=
  if t.carryDue then { t.second with calSub := 1 }
  else if t.calSub = 32767 then { t with carryDue := true }
  else { t with calSub := t.calSub + 1 }

/-- The ticks of one crystal edge: one, with the trim one more or none at evenly spaced edges (R46). -/
def Tim.calTicks (t : Tim) : Tim :=
  let a := t.trimAcc + t.calTrim.toInt
  if 100000000 ≤ a then ({ t with trimAcc := a - 100000000 }).calTick.calTick
  else if a ≤ -100000000 then { t with trimAcc := a + 100000000 }
  else ({ t with trimAcc := a }).calTick

/-- A 32.768 kHz edge: where a value set by software waits it is taken (R45), else the ticks advance. -/
def Tim.calEdge (t : Tim) : Tim := if t.calSet.isSome then t.takeSet else t.calTicks

/-- One nanosecond of the crystal, in units of 10^−17 of its period: the edges stand where the crystal puts them (R46). -/
def Tim.calNs (t : Tim) : Tim :=
  if t.vbak then
    let f := t.calFrac + 3276800000000
    if 10 ^ 17 ≤ f then ({ t with calFrac := f - 10 ^ 17 }).calEdge else { t with calFrac := f }
  else t

/-- Device time advances by one on a TCLK edge, but for the counts that the slew of a standby inserts or omits (R36,
R38). Log 42 (DEDUCED). -/
def Tim.count (t : Tim) (standby : Bool) : Tim :=
  if standby && bit t.slew 16 then
    let a := t.slewAcc + signed 16 (field t.slew 15 0)
    if 100000000 ≤ a then { t with now := t.now + 2, slewAcc := a - 100000000 }
    else if a ≤ -100000000 then { t with slewAcc := a + 100000000 }
    else { t with now := t.now + 1, slewAcc := a }
  else { t with now := t.now + 1 }

/-- A step of plant time on a TCLK edge (R50). -/
def Tim.plantEdge (t : Tim) : Tim := { t with plant := t.plant + BitVec.ofInt 96 (2 ^ 32 + t.plantRate.toInt) }

/-- The sixths of CCLK that a TCLK edge brings: six, or five while derated (R29). -/
def Tim.cclk (t : Tim) (derated : Bool) : Tim × Bool :=
  let p := t.cclkPhase + (if derated then 5 else 6)
  if 6 ≤ p then ({ t with cclkPhase := p - 6 }, true) else ({ t with cclkPhase := p }, false)

/-- A CCLK edge: LNE_BUSY counts in every lane that does not wait (R149). -/
def Lane.tick (l : Lane) : Lane := if l.state == .waiting then l else { l with busy := l.busy + 1 }

/-- The integer part of the accumulator (R228). -/
def StepPair.whole (p : StepPair) : Int := p.acc / 2 ^ 32

/-- Pulses of one direction put behind those that are due (R229). -/
def pulsesDue (due : List (Bool × Nat)) (neg : Bool) (n : Nat) : List (Bool × Nat) :=
  match due with
  | [] => [(neg, n)]
  | [(d, m)] => if d = neg then [(d, m + n)] else [(d, m), (neg, n)]
  | x :: t => x :: pulsesDue t neg n

/-- A TCLK edge at a STEP/DIR pair: the pulse accumulator takes its increment while enabled, and a change of its integer part
makes a pulse due in the direction of the change (R228, R229). -/
def StepPair.tick (p : StepPair) : StepPair :=
  if p.en then
    let q := { p with acc := p.acc + p.inc }
    let d := q.whole - p.whole
    if d = 0 then q else { q with due := pulsesDue p.due (decide (d < 0)) d.natAbs }
  else p

/-- A second of power-on time: the count, and from release the 5 °C bin of the hottest sensor (R424). Log 42 (DEDUCED). -/
def Dbk.second (d : Dbk) (temp : Word) (released : Bool) : Dbk :=
  let n := clamp 0 37 ((signed 16 (field temp 15 0) + 400) / 50)
  { d with poh := d.poh + 1, tjHist := if released then setAt d.tjHist n.toNat (· + 1) else d.tjHist }

/-- A LOAD has copied its words and its checks begin: STAGE_STATE LOADING, then CHECKING (R74). Log 66 (DESIGN CHOICE). -/
def State.copyStep (s : State) : State :=
  s.mapCht fun t => if t.stage = .loading then { t with stage := .checking } else t

/-- One TCLK edge of the device: the calendar runs while VBAK is present; all else runs from the PLL, locked or in
holdover. Power-on seconds advance at every 10^9 edges. Log 3 (DESIGN CHOICE). -/
def State.tclk (s : State) : State :=
  let s0 := (s.mapTim Tim.calNs).copyStep
  if s.clk.lock || s.clk.holdover then
    let counted := { s0.tim with edges := s0.tim.edges + 1 }.count (s.par.role == Role.standby)
    let (t1, edge) := counted.plantEdge.cclk s.clk.derated
    let s1 := { s0 with
      tim := t1
      lanes := if edge then s0.lanes.map Lane.tick else s0.lanes
      io := { s0.io with step := s0.io.step.map StepPair.tick }
      ptb := if t1.edges % 2 = 0 then s0.ptb.tick else s0.ptb }
    let s2 := s1.cmpTick
    if t1.edges % 1000000000 = 0 then s2.mapDbk fun d => d.second s2.glb.temp s2.bst.released else s2
  else s0

end Sys2Proof.Machine
end

