-- ==== Sys2Proof/Machine/Daybook.lean ====
section
/-!
DEFINITION. What the Daybook keeps (18_ageing_and_daybook, R424 to R426): the making of its records, the journal, and the
counts of an axis.
-/
namespace Sys2Proof.Machine
open Sys2Proof

/-- An entry made: it waits for the journal, with the calendar seconds. Types stand in the order of the table *Daybook
records*. -/
def Dbk.add (d : Dbk) (type : Nat) (sec : BitVec 48) (content : List Word) : Dbk :=
  { d with pending := d.pending ++ [{ type := type, stamp := sec.toNat, content := content, live := false }] }

/-- The stamp of an entry: the calendar seconds, and 0 after a loss of VBAK until software sets the calendar (R424, R429). -/
def State.stamp (s : State) : BitVec 48 := if s.tim.calOk then s.tim.calSec else 0

/-- An entry made now. -/
def State.dayAdd (s : State) (type : Nat) (content : List Word) : State :=
  s.mapDbk fun d => d.add type s.stamp content

/-- A record kept open: one of its kind takes its place. -/
def State.dayOpen (s : State) (type : Nat) (content : List Word) : DbkRec :=
  { type := type, stamp := s.stamp.toNat, content := content, live := true }

/-! ## The journal (R424 to R426) -/

/-- Whether two records are of one kind: the same type, and of the same axis. -/
def DbkRec.sameKind (r q : DbkRec) : Bool := r.type == q.type && (r.type != 7 || r.content.getD 0 0 == q.content.getD 0 0)

/-- The SERIAL of an ENROL record. -/
def DbkRec.serial (r : DbkRec) : Word × Word := (r.content.getD 0 0, r.content.getD 1 0)

/-- ENROL records are kept: the last 64 of each SERIAL; beyond 1,024 SERIALs the one not seen for the longest time gives
way. -/
def keepEnrol (l : List DbkRec) (r : DbkRec) : List DbkRec :=
  let same := l.filter fun q => q.type == 8 && q.serial == r.serial
  let l1 := if 64 ≤ same.length then
      match same.head? with
      | some q => l.erase q
      | none => l
    else l
  let serials := ((l1.filter fun q => q.type == 8).reverse.map DbkRec.serial).eraseDups
  if same.isEmpty && decide (1024 ≤ serials.length) then
    match serials.getLast? with
    | some old => l1.filter fun q => !(q.type == 8 && q.serial == old)
    | none => l1
  else l1

/-- A record written to the journal: a record still open gives way to the next of its kind. -/
def journalPut (l : List DbkRec) (r : DbkRec) : List DbkRec :=
  let l1 := if r.type = 8 then keepEnrol l r else l.filter fun q => !(q.live && q.sameKind r)
  l1 ++ [r]

/-- The 32 B entries of a record. -/
def DbkRec.entries (r : DbkRec) : Nat := 1 + Config.moreEntries r.content.length

/-- The 32 B entries of several records. -/
def entriesOf (rs : List DbkRec) : Nat := rs.foldl (fun n r => n + r.entries) 0

/-- Entries of a 64 KiB sector. -/
def sectorEntries : Nat := 2048

/-- A checkpoint of every live record once 8 sectors have been filled since the one before it (R426). Log 38 (DESIGN CHOICE). -/
def Dbk.checkpoint (d : Dbk) : Dbk :=
  if d.ckptNew / sectorEntries + 8 ≤ d.seq / sectorEntries then
    { d with ckptOld := d.ckptNew, ckptNew := d.seq, seq := d.seq + entriesOf d.journal }
  else d

/-- Sectors older than the second-newest checkpoint are erased, oldest first, in turn over the region: DBK_ERASES shows the
highest count (R426). Log 38 (DESIGN CHOICE). -/
def Dbk.eraseOld (d : Dbk) : Dbk :=
  let n := d.ckptOld / sectorEntries
  let sectors := field d.region 10 0
  { d with erased := max d.erased n, erases := BitVec.ofNat 32 ((max d.erased n + sectors - 1) / sectors) }

/-- The records of a list put into the journal; the epoch of an EPOCH record is journalled. -/
def Dbk.put (d : Dbk) (rs : List DbkRec) : Dbk :=
  rs.foldl (fun d r =>
    { d with
      journal := journalPut d.journal r
      epoch := if r.type = 6 then max d.epoch (r.content.getD 0 0).toNat else d.epoch }) d

/-- Records written to the journal in the flash: their entries are appended in sector order, with their checkpoints and erasures
(R426). -/
def Dbk.write (d : Dbk) (rs : List DbkRec) : Dbk :=
  let d1 := d.put rs
  ({ d1 with seq := d.seq + entriesOf rs }.checkpoint).eraseOld

/-- Pending entries written. -/
def Dbk.flush (d : Dbk) : Dbk := { (d.write d.pending) with pending := [] }

/-- The journal as it would stand with what is pending: every live record (R428). -/
def Dbk.snapshot (d : Dbk) : List DbkRec := (d.put d.pending).journal

/-- The EPOCH records that wait are journalled: at release, and where the Daybook is ready as a claim comes into force (R425).
Log 40 (DEDUCED). -/
def State.journalEpoch (s : State) : State :=
  if s.dbk.ready then
    s.mapDbk fun d =>
      { d.write (d.pending.filter fun r => r.type == 6) with pending := d.pending.filter fun r => r.type != 6 }
  else s

/-! ## AXIS records -/

/-- Content of the AXIS record of an axis: axis, SERIAL, travel, revolutions, reversals, energised seconds, and fault counts
for causes 1 to 7. -/
def State.axisContent (s : State) (a : Nat) : List Word :=
  let x := s.axis a
  let cpr := (s.page a (0x180 + 4 * 22)).toNat
  [BitVec.ofNat 32 a] ++ twoWords x.dbkSerial.toNat ++ twoWords x.travel ++ twoWords (if cpr = 0 then 0 else x.travel / cpr)
    ++ [BitVec.ofNat 32 x.reversals, BitVec.ofNat 32 (x.energised / 10 ^ 9)] ++ x.faults.map fun n => BitVec.ofNat 32 n

/-- The AXIS record of an axis is closed and a new one opened, for the station of a SERIAL. Log 40 (DEDUCED). -/
def State.closeRecord (s : State) (a : Nat) (serial : Word64) : State :=
  let r := { s.dayOpen 7 (s.axisContent a) with live := false }
  (s.mapDbk fun d =>
      { d with journal := d.journal.filter (fun q => !(q.live && q.sameKind r)), pending := d.pending ++ [r] }).mapAxis a
    fun x => { x with travel := 0, reversals := 0, energised := 0, faults := List.replicate 7 0, dbkSerial := serial }

/-- SERIAL of the station that actuates an axis: none of a local one; while its station is not bound, that of the open record. -/
def State.actuator (s : State) (r : AxisRec) : Word64 :=
  let t := s.station (field r.target 8 0)
  if isLocal r.target then 0 else if t.present then t.serial else (s.axis r.axis).dbkSerial

/-- A new AXIS record is opened where the SERIAL of the station that actuates an axis changes (R424). -/
def State.reviewRecord (s : State) (r : AxisRec) : State :=
  if (s.axis r.axis).dbkSerial = s.actuator r then s else s.closeRecord r.axis (s.actuator r)

/-! ## ENROL records -/

/-- Code of a position state (R335). -/
def posCode : PosState → Nat
  | .absent => 0
  | .found => 1
  | .identified => 2
  | .unbound => 3
  | .timing => 4
  | .configuring => 5
  | .bound => 6
  | .suspended => 7
  | .isolated => 8

/-- ENROL: SERIAL, port, position, station number, state entered and reason. Log 40 (DEDUCED). -/
def State.dayEnrol (s : State) (q : Position) (p n : Nat) (st : PosState) (reason : Nat) : State :=
  s.dayAdd 8 (twoWords q.serial.toNat ++
    [BitVec.ofNat 32 p, BitVec.ofNat 32 n, BitVec.ofNat 32 (q.station.getD 0x3FF), BitVec.ofNat 32 (posCode st),
     BitVec.ofNat 32 reason])

end Sys2Proof.Machine
end

