-- ==== Sys2Proof/Machine/Ageing.lean ====
section
/-!
DEFINITION. Ageing, margin and the Daybook (18_ageing_and_daybook): the monitors, the margin steps, re-tuning, derating by
the planner, the daily projection, PMBus, and the commands of the Daybook; with the temperature pin and the AIN
converters (19_limits_and_electrical, R436, R439).
-/
namespace Sys2Proof.Machine
open Sys2Proof

/-- The AGEING record of the active Charter; the defaults of the table *Structure fields* where there is none. -/
def State.ageing (s : State) : AgeingRec :=
  match s.cht.active with
  | some c => c.ageing
  | none => { permit := true, vcoreMax := 850, reservePs := 60, warnDays := 180 }

/-! ## PMBus (R418, R422, R423) -/

/-- A VOUT_COMMAND, which PMB_VSET shows: sent within 700 mV to 850 mV; any other is not sent and sets RANGE. -/
def State.voutCommand (s : State) (mv : Nat) : State :=
  let s1 := s.mapPmb fun p => { p with vset := BitVec.ofNat 32 mv }
  if 700 ≤ mv ∧ mv ≤ 850 then (s1.mapPmb fun p => { p with verify := some mv }).mapAge fun a => { a with vcore := mv }
  else s1.mapPmb fun p => { p with evt := setBit p.evt 1 }

/-- VOLTAGE: old and new VCORE, M before and after. Log 46 (DESIGN CHOICE). -/
def State.dayVoltage (s : State) (old new : Nat) (before after : Word) : State :=
  (s.dayAdd 4 [BitVec.ofNat 32 old, BitVec.ofNat 32 new, before, after]).mapDbk fun d => { d with vcore := some new }

/-- Where the restore leads: the setting of the Daybook, 750 mV without one, held within 750 mV and VCORE_MAX (R417, R418). -/
def State.restoreGoal (s : State) : Nat := max 750 (min s.ageing.vcoreMax (s.dbk.vcore.getD 750))

/-- A step of the restore sent, with its VOLTAGE record; the setting of the Daybook stands until the restore is over.
Log 46 (DESIGN CHOICE). -/
def State.restoreTo (s : State) (mv : Nat) : State :=
  let m := BitVec.ofInt 32 s.age.margin
  (s.voutCommand mv).dayAdd 4 [BitVec.ofNat 32 s.age.vcore, BitVec.ofNat 32 mv, m, m]

/-- One step of the restore: 10 mV towards its goal; it ends there (R418). Log 46 (DESIGN CHOICE). -/
def State.restoreStep (s : State) : State :=
  let goal := s.restoreGoal
  let v := s.age.vcore
  if v = goal then s.mapAge fun a => { a with restored := true }
  else if v < goal then s.restoreTo (min goal (v + 10))
  else s.restoreTo (max goal (v - 10))

/-- SMBALERT: the SMBALERT# input sets ALERT. -/
def execSmbalert (s : State) : Host.Outcome State Fault Refusal :=
  .next (s.mapPmb fun p => { p with evt := setBit p.evt 2 })

/-! ## DEVICE and TJ_HIST records (R424) -/

/-- DEVICE: power-on seconds, power cycles, brown-outs, VCORE setting, derate state and equaliser settings. -/
def State.dayDevice (s : State) : State :=
  let r := s.dayOpen 1 (twoWords s.dbk.poh.toNat ++
    [BitVec.ofNat 32 s.dbk.powerCycles, BitVec.ofNat 32 s.dbk.brownOuts, BitVec.ofNat 32 s.age.vcore,
     BitVec.ofNat 32 (flagAt s.clk.derated 0)] ++ s.ports.map Port.eq ++ s.age.mirCtle.map (BitVec.ofNat 32))
  s.mapDbk fun d => { d with pending := d.pending ++ [r] }

/-- TJ_HIST: minutes in each of the 38 bins. -/
def State.dayTj (s : State) : State :=
  let r := s.dayOpen 2 (s.dbk.tjHist.map fun n => BitVec.ofNat 32 (n / 60))
  s.mapDbk fun d => { d with pending := d.pending ++ [r] }

/-! ## Margin steps (R416 to R420) -/

/-- An eye as TBP_EYE shows it: HEIGHT and WIDTH. -/
def eyeWord (e : Nat × Nat) : Word := BitVec.ofNat 32 (e.1 % 256 + (e.2 % 256) * 256)

/-- HEIGHT below 25 or WIDTH below 24. -/
def eyeLow (e : Word) : Bool := decide (field e 7 0 < 25) || decide (field e 15 8 < 24)

/-- The least of a list of slacks; 0 of none. -/
def leastSlack (l : List Int) : Int :=
  match l with
  | [] => 0
  | x :: t => t.foldl min x

/-- The sensitivity after step 1: the rise of M over the rise of VCORE, 0.01 ps per mV. -/
def State.setSens (s : State) (m0 : Int) (v0 : Nat) : State :=
  let dv := s.age.vcore - v0
  if dv = 0 then s else s.mapAge fun a => { a with sens := lowBits 16 (crndDiv ((a.margin - m0) * 100) dv) }

/-- CTLE of a receiver: ports 0 to 31, then the mirror lanes. -/
def State.ctleOf (s : State) (rx : Nat) : Nat :=
  if rx < 32 then field (s.port rx).eq 4 0 else s.age.mirCtle.getD (rx - 32) 0

/-- CTLE of a receiver set. -/
def State.setCtle (s : State) (rx code : Nat) : State :=
  if rx < 32 then
    s.mapPort rx fun p => { p with eq := (p.eq &&& ~~~(0x1F : Word)) ||| BitVec.ofNat 32 (code % 32) }
  else s.mapAge fun a => { a with mirCtle := putAt a.mirCtle (rx - 32) code }

/-- The eye of a receiver as read last. -/
def State.eyeOf (s : State) (rx : Nat) : Word :=
  if rx < 32 then (s.port rx).eye else s.age.mirEye.getD (rx - 32) 0

/-- The codes a re-tune tries: one above and one below the present code. Log 47 (DEDUCED). -/
def trialCodes (base : Nat) : List Nat :=
  (if base < 31 then [base + 1] else []) ++ (if 0 < base then [base - 1] else [])

/-- A re-tune begins: adaptation is held, and the first trial is applied. Log 47 (DEDUCED). -/
def State.retuneStart (s : State) (rx : Nat) : State :=
  if s.age.retunes.any (fun r => r.rx == rx) then s
  else
    let base := s.ctleOf rx
    let e := s.eyeOf rx
    let s1 := if rx < 32 then s.mapPort rx fun p => { p with ctrl := setBit p.ctrl 1 }
      else s.mapAge fun a => { a with mirHold := putAt a.mirHold (rx - 32) true }
    (s1.setCtle rx ((trialCodes base).getD 0 base)).mapAge fun a =>
      { a with
        retunes := a.retunes ++ [{ rx := rx, base := base, trials := [(base, field e 7 0, field e 15 8)] }]
        evt := setBit a.evt 1 }

/-- Step 2: every port with link up and every mirror lane whose eye is below the limits. -/
def State.retuneAll (s : State) : State :=
  let rxs := ((List.range 32).filter fun p => (s.port p).linkUp && eyeLow (s.port p).eye)
    ++ ((List.range 2).filter fun i => eyeLow (s.age.mirEye.getD i 0)).map (· + 32)
  forEach rxs (fun rx s => s.retuneStart rx) s

/-- The planner tries to derate: it writes TARGET 1 where DERATE_PERMIT and ACTIVE_DERATE_SAFE are 1; otherwise it sets
DERATE_BLOCKED. -/
def State.planDerate (s : State) : State :=
  if s.ageing.permit && s.cht.activeSafe then
    (s.mapAge fun a => { a with planned := true }).derateWrite 1
  else s.mapAge fun a => { a with evt := setBit a.evt 3 }

/-- Step 3, and exhaustion: derating falls due; below half the reserve it is made without a maintenance stop, unless
software has overridden the planner (R429). Log 45 (DEDUCED). -/
def State.stepThree (s : State) (reserve : Int) (vmax : Nat) : State :=
  let low := decide (s.age.margin < reserve)
  let due := low && (decide (vmax ≤ s.age.vcore) || s.age.pmbStopped) && !s.clk.derated
  let exh := decide (2 * s.age.margin < reserve)
  let s1 := s.mapAge fun a =>
    { a with
      evt := (if due && !a.derateDue then setBit a.evt 2 else a.evt) ||| BitVec.ofNat 32 (flagAt exh 4)
      derateDue := due, exhausted := exh }
  if due && exh && !s.age.overridden then s1.planDerate else s1

/-- Monitor readings taken into the registers. -/
def State.takeReadings (s : State) (r : MonReading) : State :=
  { s with
    ports := (indexed s.ports).map fun (e : Nat × Port) => { e.2 with eye := eyeWord (r.eyes.getD e.1 (0, 0)) }
    age := { s.age with
      rpl := (List.range 21).map fun i => r.slack.getD i 0
      ro := (List.range 48).map fun j => r.ro.getD j 0
      mirEye := (List.range 2).map fun i => eyeWord (r.mirEyes.getD i (0, 0))
      margin := leastSlack ((List.range 21).map fun i => r.slack.getD i 0)
      readReq := false } }

/-- The planner has decided something between two states: a step of VCORE, a re-tune, or anything about derating (R424). -/
def planDecided (a b : Age) : Bool :=
  a.vcore != b.vcore || a.retunes.length != b.retunes.length || a.derateDue != b.derateDue || a.planned != b.planned
    || a.evt != b.evt

/-- What follows step 1: the sensitivity, steps 2 and 3, and a DEVICE record of what the planner decided (R417, R424). -/
def State.marginSteps (s : State) (m0 : Int) (v0 : Nat) : State :=
  let s1 := (s.setSens m0 v0).retuneAll.stepThree s.ageing.reservePs s.ageing.vcoreMax
  if s.age.vcore != v0 || planDecided s.age s1.age then s1.dayDevice else s1

/-- Step 1 from M and VCORE as they stand: while M is below the reserve and VCORE below its maximum, 10 mV more are sent, and M is
measured again once that step is verified; then the other steps follow (R417, R423). Log 45 (DEDUCED). -/
def State.raiseVcore (s : State) (m0 : Int) (v0 : Nat) (after : List Int) : State :=
  let g := s.ageing
  let new := min g.vcoreMax (s.age.vcore + 10)
  if decide (s.age.margin < g.reservePs) && decide (s.age.vcore < g.vcoreMax) && !s.age.pmbStopped && !after.isEmpty
      && decide (700 ≤ new) && decide (new ≤ 850) then
    (s.voutCommand new).mapAge fun a =>
      { a with raising := some { old := s.age.vcore, v0 := v0, m0 := m0, after := after }, evt := setBit a.evt 0 }
  else s.marginSteps m0 v0

/-- M measured after a step of VCORE: the step's VOLTAGE record, and the next step or the end of step 1. -/
def State.raised (s : State) (q : Raise) : State :=
  let m := q.after.headD s.age.margin
  let s1 := s.dayVoltage q.old s.age.vcore (BitVec.ofInt 32 s.age.margin) (BitVec.ofInt 32 m)
  (s1.mapAge fun a => { a with margin := m, raising := none }).raiseVcore q.m0 q.v0 (q.after.drop 1)

/-- MONITOR_READ: after release, with the restore ended, the monitors are read and the margin steps apply in order. While step 1
of a read is under way no other read begins. -/
def execMonitorRead (r : MonReading) (s : State) : Host.Outcome State Fault Refusal :=
  if s.bst.released && s.age.restored && s.age.raising.isNone then
    let s1 := s.takeReadings r
    .next (s1.raiseVcore s1.age.margin s1.age.vcore r.after)
  else .next s

/-- The verdict on a VOUT_COMMAND: READ_VOUT, READ_IOUT and STATUS_WORD are taken, and a reading more than 5 mV away is
VERIFY_FAIL, after which step 1 makes no change until the next reset. An answer that is not acknowledged or whose packet error
code fails sets its bit and gives no reading (R422, R423). Log 46 (DESIGN CHOICE). -/
def State.pmbRead (s : State) (mv readMv : Nat) (r : PmbReply) : State :=
  if r.nack || r.pecErr then
    s.mapPmb fun p => { p with verify := none, evt := setBit p.evt (if r.nack then 3 else 4) }
  else
    let fail := decide (mv + 5 < readMv) || decide (readMv + 5 < mv)
    (s.mapPmb fun p =>
      { p with
        verify := none, vread := BitVec.ofNat 32 (readMv % 1024 + (r.iout % 65536) * 65536), status := r.status.setWidth 32
        evt := if fail then setBit p.evt 0 else p.evt }).mapAge fun a => { a with pmbStopped := a.pmbStopped || fail }

/-- PMBUS_VERIFY, 1 ms after a VOUT_COMMAND: the regulator is read, and a restore or a step 1 that is under way goes on. -/
def execPmbusVerify (readMv : Nat) (reply : PmbReply) (s : State) : Host.Outcome State Fault Refusal :=
  match s.pmb.verify with
  | none => .next s
  | some mv =>
    let s1 := s.pmbRead mv readMv reply
    .next (if s1.bst.released && !s1.age.restored then s1.restoreStep
      else match s1.age.raising with
        | some q => s1.raised q
        | none => s1)

/-- READ_NOW: a read is requested. -/
def State.readNow (s : State) : State := s.mapAge fun a => { a with readReq := true }

/-- READ_NOW. -/
def execReadNow (_src : Source) (s : State) : Host.Outcome State Fault Refusal := .next s.readNow

/-- MAINT: where DERATE_DUE is 1 the planner may derate, after an override too; otherwise no effect. -/
def State.maint (s : State) : State :=
  if s.age.derateDue then ((s.mapAge fun a => { a with overridden := false }).planDerate).dayDevice else s

/-- MAINT. -/
def execMaint (_src : Source) (s : State) : Host.Outcome State Fault Refusal := .next s.maint

/-- The trial of greatest HEIGHT, the earlier of equals. -/
def bestTrial : List (Nat × Nat × Nat) → Nat × Nat × Nat
  | [] => (0, 0, 0)
  | t :: ts => ts.foldl (fun b c => if b.2.1 < c.2.1 then c else b) t

/-- A re-tune ends: the best code and its eye are kept, and an eye still below the limits is shown. -/
def State.retuneEnd (s : State) (q : Retune) : State :=
  let b := bestTrial q.trials
  let e := eyeWord b.2
  let low := eyeLow e
  let mark := fun (w : Word) (i : Nat) => if low then setBit w i else clearBit w i
  let s1 := s.setCtle q.rx b.1
  let s2 := if q.rx < 32 then s1.mapPort q.rx fun p => { p with eye := e }
    else s1.mapAge fun a => { a with mirEye := putAt a.mirEye (q.rx - 32) e }
  (s2.mapAge fun a =>
    { a with
      evt := if low then setBit a.evt 6 else a.evt
      linkLow := if q.rx < 32 then mark a.linkLow q.rx else a.linkLow
      mirLow := if q.rx < 32 then a.mirLow else mark a.mirLow (q.rx - 32) }).dayDevice

/-- RETUNE_TRIAL_END: the trial in hand of the re-tune begun first ends with an eye; the next trial is applied, or the
re-tune ends. -/
def execRetuneTrialEnd (height width : Nat) (s : State) : Host.Outcome State Fault Refusal :=
  match s.age.retunes with
  | [] => .next s
  | q :: rest =>
    let codes := trialCodes q.base
    let i := q.trials.length - 1
    let q1 : Retune := { q with trials := q.trials ++ [(codes.getD i q.base, height, width)] }
    match codes[i + 1]? with
    | some c => .next ((s.setCtle q.rx c).mapAge fun a => { a with retunes := q1 :: rest })
    | none => .next ((s.mapAge fun a => { a with retunes := rest }).retuneEnd q1)

/-! ## The daily projection (R421) -/

/-- Terms z^(2k+1) / (2k+1) of a series, z in units of 2^−96. -/
def atanhTerms (z2 : Int) : Nat → Int → Int → Int → Int
  | 0, _, _, acc => acc
  | n + 1, p, k, acc => atanhTerms z2 n (p * z2 / 2 ^ 96) (k + 2) (acc + p / k)

/-- ln (n / d) of a ratio from 1 to 2, in units of 2^−96. -/
def lnUnit (n d : Nat) : Int :=
  let z := ((n : Int) - d) * 2 ^ 96 / ((n : Int) + d)
  2 * atanhTerms (z * z / 2 ^ 96) 40 z 1 0

/-- ln (n / d), n not below d, in units of 2^−96. -/
def lnRatio (n d : Nat) : Int :=
  let k := Nat.log2 (n / d)
  k * lnUnit 2 1 + lnUnit n (d * 2 ^ k)

/-- exp of a non-negative number in units of 2^−96. -/
def expPos (u : Int) : Int :=
  let l2 := lnUnit 2 1
  2 ^ (u / l2).toNat * expTerms (-(u % l2)) 40 (2 ^ 96) 1 (2 ^ 96)

/-- E = M + S × (VCORE_MAX − VCORE), in 0.01 ps; after a failed verify VCORE counts as VCORE_MAX (R421, R423). -/
def State.equivMargin (s : State) : Int :=
  s.age.margin * 100 + (if s.age.pmbStopped then 0 else (signed 16 s.age.sens) * ((s.ageing.vcoreMax : Int) - s.age.vcore))

/-- Daily values with ln of their power-on hours, in units of 2^−96. -/
def logHours (l : List (Nat × Int × Nat)) : List (Int × Int) := l.map fun d => (lnRatio (max d.1 3600) 3600, d.2.1)

/-- The power-on seconds that remain until E reaches the reserve, by the least-squares fit; none without a projection. -/
def remainingSeconds (l : List (Nat × Int × Nat)) (reserve : Int) (now : Nat) : Option Nat :=
  let xs := logHours l
  let n : Int := xs.length
  let sx := xs.foldl (fun a p => a + p.1) 0
  let sy := xs.foldl (fun a p => a + p.2) 0
  let sxx := xs.foldl (fun a p => a + p.1 * p.1) 0
  let sxy := xs.foldl (fun a p => a + p.1 * p.2) 0
  let den := n * sxx - sx * sx
  let b := sx * sy - n * sxy       -- b × den × 2^−96
  if xs.length < 14 ∨ b ≤ 0 ∨ den ≤ 0 then none
  else
    -- ln h = (a − RESERVE) / b, with a = (Σy + b Σx) / n
    let x := ((sy - n * (100 * reserve)) * den + b * sx) / (n * b)
    let u := x - lnRatio (max now 3600) 3600
    if u ≤ 0 then some 0
    else if 200 * 2 ^ 96 < u then some (2 ^ 300)
    else some (((now : Int) * (expPos u - 2 ^ 96) / 2 ^ 96).toNat)

/-- Remaining seconds in calendar days at the mean of the same days, rounded down and held at 0xFFE. -/
def calendarDays (l : List (Nat × Int × Nat)) (remaining : Nat) : Option Nat :=
  match l.head?, l.getLast? with
  | some f, some g =>
    if g.2.2 ≤ f.2.2 ∨ g.1 ≤ f.1 then none
    else some (min 0xFFE (remaining * (g.2.2 - f.2.2) / ((g.1 - f.1) * 86400)))
  | _, _ => none

/-- DAILY_PROJECTION: the daily value of E is formed and the trend of the last 90 days projected. Where the calendar gives no
mean, DERATE_DAYS is a free value. -/
def execDailyProjection (s : State) : Host.Outcome State Fault Refusal :=
  if s.bst.released && s.age.restored then
    let g := s.ageing
    let poh := s.dbk.poh.toNat
    let all := s.age.daily ++ [(poh, s.equivMargin, s.tim.calSec.toNat)]
    let l := all.drop (all.length - 90)
    let days := match remainingSeconds l g.reservePs poh with
      | none => 0xFFF
      | some r => (calendarDays l r).getD (s.free.toNat % 0xFFF)
    let warn := decide (days ≠ 0xFFF) && decide (days ≤ g.warnDays)
    .next ((s.mapAge fun a =>
      { a with
        daily := l, derateDays := days, warn := warn
        evt := if warn then setBit a.evt 5 else a.evt }).drawn 1)
  else .next s

/-! ## Daybook commands (R424, R426, R428) -/

/-- EXPORT: a snapshot of every live record is taken. -/
def State.dbkExport (s : State) : State :=
  if s.dbk.ready && !s.dbk.busy then
    s.mapDbk fun d => { d with busy := true, exporting := some d.snapshot }
  else s

/-- EXPORT. -/
def execExportDaybook (_src : Source) (s : State) : Host.Outcome State Fault Refusal := .next s.dbkExport

/-- The words of a record in an export: TYPE and length, the stamp, and the content. Log 39 (DESIGN CHOICE). -/
def DbkRec.words (r : DbkRec) : List Word :=
  [BitVec.ofNat 32 (r.type + (3 + r.content.length) * 65536)] ++ twoWords r.stamp ++ r.content

/-- Whole records copied to DRAM while they fit; what is left of them answers whether all were. Log 39 (DESIGN CHOICE). -/
def State.exportRecs (s : State) (dst room done : Nat) : List DbkRec → State × Nat × Bool
  | [] => (s, done, true)
  | r :: rs =>
    let w := r.words
    if done + w.length ≤ room ∧ s.dramOk (dst + 4 * done) (4 * w.length) = true then
      (s.dramPut (dst + 4 * done) w).exportRecs dst room (done + w.length) rs
    else
      let beyond := inBanks (dst + 4 * done) || s.inLedger (dst + 4 * done) (4 * w.length)
      (if beyond then s.errUnmapped .svc true .w32 (dst + 4 * done) else s, done, false)

/-- EXPORT_COMPLETE: the snapshot has been copied to DBK_DST; EXPORT_DONE, or EXPORT_SHORT where it did not fit. -/
def execExportComplete (s : State) : Host.Outcome State Fault Refusal :=
  match s.dbk.exporting with
  | none => .next s
  | some rs =>
    let (s1, n, whole) := s.exportRecs s.dbk.dst.toNat s.dbk.dstLen.toNat 0 rs
    .next (s1.mapDbk fun d =>
      { d with
        busy := false, exporting := none, expLen := BitVec.ofNat 32 n, evt := setBit d.evt (if whole then 0 else 1) })

/-- Pending entries written to the journal. -/
def State.dbkWrite (s : State) : State := s.mapDbk Dbk.flush

/-- FLUSH: pending journal entries are written and FLUSH_DONE is set. Log 38 (DESIGN CHOICE). -/
def State.dbkFlush (s : State) : State :=
  if s.dbk.ready then s.dbkWrite.mapDbk fun d => { d with evt := setBit d.evt 2 } else s

/-- FLUSH. -/
def execFlush (_src : Source) (s : State) : Host.Outcome State Fault Refusal := .next s.dbkFlush

/-- CLOSE_AXIS: the AXIS record of DBK_ARG's axis is closed and a new one opened. -/
def State.dbkCloseAxis (s : State) : State :=
  let a := field s.dbk.arg 7 0
  if s.dbk.ready then s.closeRecord a (s.axis a).dbkSerial else s

/-- CLOSE_AXIS. -/
def execCloseAxis (_src : Source) (s : State) : Host.Outcome State Fault Refusal := .next s.dbkCloseAxis

/-- DAYBOOK_HOURLY: DEVICE, TJ_HIST and the AXIS records are brought up to date and journalled with what is pending. -/
def execDaybookHourly (s : State) : Host.Outcome State Fault Refusal :=
  if s.dbk.ready then
    let axes := match s.cht.active with
      | some c => c.axes.map AxisRec.axis
      | none => []
    let recs := axes.map fun a => s.dayOpen 7 (s.axisContent a)
    .next ((s.dayDevice.dayTj).mapDbk fun d => { d with pending := d.pending ++ recs }).dbkWrite
  else .next s

/-! ## Temperature and AIN (R436, R439) -/

/-- The hottest sensor and its number, the lower of equals. -/
def hottest (ts : List Int) : Int × Nat :=
  match indexed ts with
  | [] => (0, 0)
  | e :: es =>
    let b := es.foldl (fun (b : Nat × Int) (c : Nat × Int) => if b.2 < c.2 then c else b) e
    (b.2, b.1)

/-- THERM_N: from release GLB_TEMP shows the hottest sensor, in 0.1 °C; the pin is driven low above 150 °C and released at
148 °C or below. Log 35 (DEDUCED). -/
def execThermN (temps : List Int) (s : State) : Host.Outcome State Fault Refusal :=
  if temps = [] then .next s
  else
    let h := hottest (temps.take 8)
    .next (s.mapGlb fun g =>
      { g with
        temp := if s.bst.released then BitVec.ofNat 32 (lowBits 16 h.1 + h.2 * 65536) else g.temp
        thermLow := if 1500 < h.1 then true else if h.1 ≤ 1480 then false else g.thermLow })

end Sys2Proof.Machine
end

