-- ==== Sys2Proof/Machine/Blocks.lean ====
section
/-!
DEFINITION. The Afmin blocks of the manual (06_axis_loops R174 to R182, 07_filters_supervision R188 to R193,
08_profiles_and_steps R227), each in the order of its pseudocode by the rules of R461, and the preloads of the hand-over
job (R203). Words of a parameter record are numbered as the tables *Block parameters* number them.
-/
namespace Sys2Proof.Machine
open Sys2Proof

/-- What a block call reads: its parameter words from the one after the shape word, the output elements of its sources
(none for 0xFF), its own outputs and states, the input stages, the period and the values of signals. -/
structure BlkIn where
  prm : List Word
  main : List Fl
  aux : List Fl
  mainFF : Bool
  auxFF : Bool
  own : List Fl
  st : List Fl
  /-- S_POS, S_VEL, S_ACC, S_ELEC, S_ANG, S_TRQ and S_STEP (R156). -/
  pos : List Fl
  vel : List Fl
  acc : List Fl
  elec : List Fl
  ang : List Fl
  trq : List Fl
  step : List Fl
  /-- ta, s. -/
  ta : Fl
  /-- SIG of NOTCH as taken under R190, or of TABLE as read. -/
  sig : Word
  deriving DecidableEq, Repr

/-- What a block call leaves: the terms of its outputs and states, status bits of AXIS_STAT, and f0 of a NOTCH. -/
structure BlkOut where
  out : List Acc
  st : List Acc
  /-- AXIS_STAT bits that the block sets in this job. -/
  bits : Nat
  f0 : Option Fl
  deriving DecidableEq, Repr

/-- A list of values as terms. -/
def accs (l : List Fl) : List Acc := l.map Fl.acc

/-- Element i of a list of values. -/
def elAt (l : List Fl) (i : Nat) : Fl := l.getD i Fl.zero

/-- BF scalar at word w of the record. -/
def BlkIn.bf (b : BlkIn) (w : Nat) : Fl := bfAt b.prm (w - 3)
/-- U32 at word w of the record. -/
def BlkIn.u32 (b : BlkIn) (w : Nat) : Nat := (b.prm.getD (w - 3) 0).toNat

/-- The number one and a half. -/
def flOne : Fl := { m := 2 ^ 30, e := 1 }
def flHalf : Fl := { m := 2 ^ 30, e := 0 }

/-- A stage's elements. -/
def outOnly (l : List Acc) : BlkOut := { out := l, st := [], bits := 0, f0 := none }

/-- sin of 2πj / 16,384 from the quarter-wave table, by symmetry, exponent 0 (R110). -/
def sinAt (j : Int) : Int :=
  let i := (j % 16384).toNat
  let r := i % 4096
  match i / 4096 with
  | 0 => sineEntry r
  | 1 => sineEntry (4096 - r)
  | 2 => -sineEntry r
  | _ => -sineEntry (4096 - r)

/-- cos of 2πj / 16,384. -/
def cosAt (j : Int) : Int := sinAt (j + 4096)

/-! ## Current path -/

/-- XFRM (R174). -/
def blkXfrm (b : BlkIn) : BlkOut :=
  let ki := b.bf 3
  let ia := (ki.mul (elAt b.elec 0)).fl
  let ib := (ki.mul (elAt b.elec 1)).fl
  let ic := (ki.mul (elAt b.elec 2)).fl
  let vb := (b.bf 5).mul (elAt b.elec 3)
  let c := elAt b.ang 0
  let s := elAt b.ang 1
  let three := b.u32 9 = 1
  let ial := if three then ((((ia.acc.shift 1).sub ib.acc).sub ic.acc).fl.mul cThird).fl else ia
  let ibe :=
    if three then ((ib.acc.sub ic.acc).fl.mul cInvSqrt3).fl
    else ((ia.acc.add (ib.acc.shift 1)).fl.mul cInvSqrt3).fl
  let id := (ial.mul c).add (ibe.mul s)
  let iq := (ial.mul s).neg.add (ibe.mul c)
  let we := (b.bf 7).mul (elAt b.vel 0)
  outOnly [iq, id, we, vb, c.acc, s.acc]

/-- The quantities of IDQ that its law and its preload share: eq, ed, we, xq × iq drive, and vmax. -/
structure IdqT where
  eq : Fl
  ed : Fl
  decD : Acc
  decQ : Acc
  vmax : Fl
  deriving DecidableEq, Repr

/-- The terms of IDQ from its sources (R175). -/
def idqTerms (b : BlkIn) : IdqT :=
  let iq := elAt b.aux 0
  let id := elAt b.aux 1
  let we := elAt b.aux 2
  let vb := elAt b.aux 3
  { eq := ((elAt b.main 0).acc.sub iq.acc).fl
    ed := ((b.bf 17).acc.sub id.acc).fl
    decD := (we.mul (b.bf 13)).fl.mul iq
    decQ := we.mul (((b.bf 11).mul id).add (b.bf 15).acc).fl
    vmax := (((b.bf 19).mul (vb.max Fl.zero)).fl.mul cInvSqrt3).fl }

/-- IDQ (R175): V_LIMIT is bit 8. -/
def blkIdq (b : BlkIn) : BlkOut :=
  let t := idqTerms b
  let kpd := b.bf 3
  let kidt := b.bf 5
  let kpq := b.bf 7
  let kiqt := b.bf 9
  let idInt := elAt b.st 0
  let iqInt := elAt b.st 1
  let vq1 := (((kpq.mul t.eq).add iqInt.acc).add (kiqt.mul t.eq)).fl
  let vd1 := (((kpd.mul t.ed).add idInt.acc).add (kidt.mul t.ed)).fl
  let vd := (vd1.acc.sub t.decD).fl
  let vq := (vq1.acc.add t.decQ).fl
  let mag := (vd.mul vd).add (vq.mul vq)
  let rest := [elAt b.aux 2, elAt b.aux 3, elAt b.aux 4, elAt b.aux 5]
  if 0 < mag.cmp (t.vmax.mul t.vmax) then
    let root := mag.sqrt
    { out := accs ([((vd.mul t.vmax).fl).div root, ((vq.mul t.vmax).fl).div root] ++ rest), st := accs [idInt, iqInt],
      bits := 2 ^ 8, f0 := none }
  else
    { out := accs ([vd.raise (mag.f.or t.vmax.f), vq] ++ rest)
      st := [idInt.acc.add (kidt.mul t.ed), iqInt.acc.add (kiqt.mul t.eq)], bits := 0, f0 := none }

/-- SVM (R176): UNDERVOLT is bit 10. -/
def blkSvm (b : BlkIn) : BlkOut :=
  let vd := elAt b.main 0
  let vq := elAt b.main 1
  let we := elAt b.main 2
  let vb := elAt b.main 3
  let c := elAt b.main 4
  let s := elAt b.main 5
  let dl := ((b.bf 3).mul we).fl.clamp flHalf.neg flHalf
  let d2 := (dl.mul dl).fl
  let d3 := (d2.mul dl).fl
  let d4 := (d3.mul dl).fl
  let d5 := (d4.mul dl).fl
  let cd := ((flOne.acc.sub ((dl.mul dl).shift (-1))).add (d4.mul c24th)).fl
  let sd := ((dl.acc.sub (d3.mul cSixth)).add (d5.mul c120th)).fl
  let c2 := ((c.mul cd).sub (s.mul sd)).fl
  let s2 := ((s.mul cd).add (c.mul sd)).fl
  let val := ((vd.mul c2).sub (vq.mul s2)).fl
  let vbe := ((vd.mul s2).add (vq.mul c2)).fl
  let half := val.acc.neg.shift (-1)
  let pa := val
  let pb := (half.add (cSqrt3Half.mul vbe)).fl
  let pc := (half.sub (cSqrt3Half.mul vbe)).fl
  let v0 := ((((pa.max pb).max pc).acc.add ((pa.min pb).min pc).acc).neg.shift (-1)).fl
  let floorV : Fl := { m := 2 ^ 30, e := -7 }
  if !floorV.lt vb then { outOnly (accs [flHalf, flHalf, flHalf]) with bits := 2 ^ 10 }
  else
    let d := fun (p : Fl) => (flHalf.acc.add (((p.acc.add v0.acc).fl.div vb).acc)).fl.clamp (b.bf 5) (b.bf 7)
    outOnly (accs [d pa, d pb, d pc])

/-! ## Mechanical path -/

/-- POSC (R177). -/
def blkPosc (b : BlkIn) : BlkOut :=
  let e := if b.mainFF then elAt b.pos 0 else elAt b.main 0
  let w := if b.auxFF then elAt b.vel 1 else elAt b.aux 0
  let vmax := b.bf 7
  outOnly [(((b.bf 3).mul e).add ((b.bf 5).mul w)).fl.clamp vmax.neg vmax |>.acc]

/-- The input error of VELC. -/
def velcError (b : BlkIn) : Fl :=
  let d := if b.mainFF then elAt b.vel 1 else elAt b.main 0
  let w := if b.auxFF then elAt b.vel 0 else elAt b.aux 0
  (d.acc.sub w.acc).fl

/-- VELC (R178): T_LIMIT is bit 9. -/
def blkVelc (b : BlkIn) : BlkOut :=
  let e := velcError b
  let i := elAt b.st 0
  let kit := b.bf 5
  let tmax := b.bf 7
  let u := ((((b.bf 3).mul e).add i.acc).add (kit.mul e)).fl
  if tmax.lt u.abs then
    { out := accs [(if u.m < 0 then tmax.neg else tmax).raise u.f], st := accs [i], bits := 2 ^ 9, f0 := none }
  else { out := accs [u], st := [i.acc.add (kit.mul e)], bits := 0, f0 := none }

/-- g of R179. -/
def ffwdG (w wz : Fl) : Fl :=
  if w.abs.lt wz then w.div wz
  else if w.m = 0 then Fl.zero else if w.m < 0 then flOne.neg else flOne

/-- FFWD (R179). -/
def blkFfwd (b : BlkIn) : BlkOut :=
  let w := elAt b.vel 1
  outOnly [((((elAt b.main 0).acc.add ((b.bf 3).mul (elAt b.acc 0))).add ((b.bf 5).mul w)).add
    ((b.bf 7).mul (ffwdG w (b.bf 9))))]

/-- OBS (R180): ŵ is the output of the last job. -/
def blkObs (b : BlkIn) : BlkOut :=
  let ta := b.bf 3
  let l1 := b.bf 7
  let w0 := elAt b.own 0
  let tau := if b.auxFF then elAt b.trq 0 else elAt b.aux 0
  let eps := (((elAt b.st 0).acc.add (elAt b.pos 2).acc).sub (ta.mul w0)).fl
  let delta := elAt b.st 1
  let w := (((w0.acc.add ((b.bf 5).mul tau)).sub delta.acc).add (((b.bf 9).mul ta).fl.mul eps))
  let delta' := delta.acc.sub (((b.bf 11).mul ta).fl.mul eps)
  { out := [w], st := [(flOne.acc.sub l1.acc).fl.mul eps, delta'], bits := 0, f0 := none }

/-- DCOMP (R181). -/
def blkDcomp (b : BlkIn) : BlkOut :=
  let ta := b.bf 4
  let ka := b.bf 6
  let w := elAt b.vel 0
  let a := (w.acc.sub (elAt b.st 0).acc).fl
  let y :=
    if b.u32 3 = 0 then
      ((elAt b.pos 0).acc.add (ta.mul (elAt b.vel 1))).sub
        (ta.mul (w.acc.add ((ka.mul a).shift (-1))).fl)
    else w.acc.add (ka.mul a)
  { out := [y], st := [w.acc], bits := 0, f0 := none }

/-- TABLE (R182). -/
def blkTable (b : BlkIn) : BlkOut :=
  let n := b.u32 7
  let x := if b.u32 3 ≠ 0 then ((Fl.ofInt b.sig.toInt).mul (b.bf 5)).fl else elAt b.main (b.u32 4)
  outOnly [(interp (bfVec b.prm 5 n) (bfVec b.prm (6 + n) n) x).acc]

/-! ## Supervision blocks and STEP -/

/-- The centre frequency of a NOTCH (R188). -/
def notchF0 (b : BlkIn) : Fl :=
  if b.u32 3 = 0 then b.bf 6
  else
    let n := b.u32 12
    let x := ((Fl.ofInt b.sig.toInt).mul (b.bf 4)).fl
    interp (bfVec b.prm 10 n) (bfVec b.prm (11 + n) n) x

/-- NOTCH (R188). -/
def blkNotch (b : BlkIn) : BlkOut :=
  let alpha := b.bf 8
  let g := b.bf 10
  let u := elAt b.main 0
  let s1 := elAt b.st 0
  let s2 := elAt b.st 1
  let f0 := notchF0 b
  let q := (f0.mul b.ta).fl.shift 14
  let j := q.floor
  let fr := (q.acc.sub (Fl.ofInt j).acc).fl
  let cj : Fl := { m := cosAt j, e := 0 }
  let cj1 : Fl := { m := cosAt (j + 1), e := 0 }
  let beta := (cj.acc.add (fr.mul (cj1.acc.sub cj.acc).fl)).fl
  let a := ((beta.neg).mul (flOne.acc.add alpha.acc).fl).fl
  let v := ((alpha.mul u).add s1.acc).fl
  let s1' := (a.mul (u.acc.sub v.acc).fl).add s2.acc
  let s2' := u.acc.sub (alpha.mul v)
  let y := (((flOne.acc.add g.acc).fl.mul u).add ((flOne.acc.sub g.acc).fl.mul v)).shift (-1)
  { out := [y], st := [s1', s2'], bits := 0, f0 := some f0 }

/-- Two values are equal. -/
def Fl.same (x y : Fl) : Bool := x.acc.cmp y.acc == 0

/-- LIM (R192): LIM_AMP is bit 16 and LIM_RATE bit 17. -/
def blkLim (b : BlkIn) : BlkOut :=
  let u := elAt b.main 0
  let y0 := elAt b.st 0
  let rate := b.bf 7
  let d := rate.mul b.ta
  let r := if 0 < rate.m then u.clamp (y0.acc.sub d).fl (y0.acc.add d).fl else u
  let y := r.clamp (b.bf 3) (b.bf 5)
  { out := accs [y], st := accs [y], bits := flagAt (!y.same r) 16 + flagAt (!r.same u) 17, f0 := none }

/-- ILIM (R193): I_LIMIT is bit 18. -/
def blkIlim (b : BlkIn) : BlkOut :=
  let u := elAt b.main 0
  let imax := b.bf 3
  let id := if b.auxFF then Fl.zero else elAt b.aux 1
  let m := ((imax.mul imax).sub (id.mul id)).sqrt
  let y := u.clamp m.neg m
  { out := accs [y], st := [], bits := flagAt (!y.same u) 18, f0 := none }

/-- STEP (R227). Log 36 (DEDUCED). -/
def blkStep (b : BlkIn) : BlkOut :=
  let mv := (elAt b.step 2).m ≠ 0
  let t := if mv then Fl.zero else ((elAt b.st 0).acc.add b.ta.acc).fl.min (Fl.ofInt 60)
  let hd := b.u32 19
  let ms := Fl.ofRatio 1 1000
  let thr : Acc := { a := hd * ms.m, sc := ms.e + 31 }
  let i := if hd ≠ 0 ∧ 0 ≤ t.acc.cmp thr then b.bf 17 else b.bf 15
  { out := [i.mul (elAt b.step 0), i.mul (elAt b.step 1)], st := accs [t], bits := 0, f0 := none }

/-- The block of an ID, where this manual defines it (tables *Afmin blocks* and *Supervision blocks*).
Log 24 (DESIGN CHOICE). -/
def afmin (id : Nat) : Option (BlkIn → BlkOut) :=
  match id with
  | 0x0110 => some blkXfrm
  | 0x0111 => some blkIdq
  | 0x0112 => some blkSvm
  | 0x0120 => some blkPosc
  | 0x0121 => some blkVelc
  | 0x0122 => some blkFfwd
  | 0x0123 => some blkObs
  | 0x0124 => some blkDcomp
  | 0x0130 => some blkTable
  | 0x0140 => some blkStep
  | 0x0200 => some blkNotch
  | 0x0210 => some blkLim
  | 0x0211 => some blkIlim
  | _ => none

/-! ## Preloads of a hand-over job (R203) -/

/-- A number in units of 2^−60 as a value. -/
def fl60 (v : Int) : Fl := Fl.ofFixed v 60

/-- A value in units of 2^−60, rounded by crnd. -/
def Fl.fix60 (x : Fl) : Int := x.scaled 60

/-- The states of the first VELC preloaded for an outgoing torque. -/
def velcPreload (b : BlkIn) (tauOut : Int) : List Fl :=
  let e := velcError b
  let k := ((b.bf 3).acc.add (b.bf 5).acc).fl
  let tmax := b.bf 7
  [((fl60 tauOut).acc.sub (k.mul e)).fl.clamp tmax.neg tmax]

/-- The states of the first IDQ preloaded for an outgoing voltage. -/
def idqPreload (b : BlkIn) (vdOut vqOut : Int) : List Fl :=
  let t := idqTerms b
  let kd := ((b.bf 3).acc.add (b.bf 5).acc).fl
  let kq := ((b.bf 7).acc.add (b.bf 9).acc).fl
  let q := (((fl60 vqOut).acc.sub (kq.mul t.eq)).sub t.decQ).fl.clamp t.vmax.neg t.vmax
  let d := (((fl60 vdOut).acc.sub (kd.mul t.ed)).add t.decD).fl.clamp t.vmax.neg t.vmax
  [d, q]

end Sys2Proof.Machine
end

