-- ==== Sys2Proof/Machine/Feedback.lean ====
section
/-!
DEFINITION. Position feedback (09_feedback, R232 to R249): the front end of the local ports, SSI readings, repeat outputs,
trigger inputs, the decoder of station raw forms, and the feedback records.
-/
namespace Sys2Proof.Machine
open Sys2Proof

/-! ## Settings -/

/-- Local port n. -/
def State.fb (s : State) (n : Nat) : FbPort := s.io.fb.getD n FbPort.reset
/-- Local port n changed. -/
def State.mapFb (s : State) (n : Nat) (f : FbPort → FbPort) : State := s.mapIo fun io => { io with fb := setAt io.fb n f }

/-- SSI_BITS, held within 8 to 40. -/
def ssiBits (v : Nat) : Nat := if v < 8 then 8 else if 40 < v then 40 else v

/-- KIND of a local port. -/
def FbPort.kind (p : FbPort) : Nat := field p.cfg 1 0

/-- MIN_PW in ns. -/
def FbPort.minPw (p : FbPort) : Nat := field p.cfg 11 4 * 10

/-- L_SSI of a local port (R236); SSI_HALF below 5 is read as 5. -/
def FbPort.lSsi (p : FbPort) : Nat := (ssiBits (field p.cfg 17 12) + 1) * 2 * max (field p.cfg 27 20) 5 * 10

/-- FBK_PSTATn. -/
def FbPort.stat (p : FbPort) : Word :=
  BitVec.ofNat 32 (flagAt p.invalid 0 + flagAt p.overrate 1 + flagAt p.hallInvalid 2 + flagAt p.ssiErr 3
    + flagAt p.dir 4 + flagAt p.zSeen 5)

/-- A span in ns, saturated to 32 bits. -/
def satNs (t : Nat) : Nat := min t (2 ^ 32 - 1)

/-! ## Counted edges (R232, R234, R235, R239) -/

/-- OVERRATE: the count is INVALID until software clears it (R234). -/
def FbPort.overrateNow (p : FbPort) : FbPort := { p with overrate := true, invalid := true }

/-- A counted edge at an instant, in the direction its inputs give: INVERT reverses it; one less than 40 ns after the last
sets OVERRATE; while the count is INVALID it does not change (R234). Log 28 (DEDUCED). -/
def FbPort.edge (p : FbPort) (t : Nat) (down : Bool) : FbPort :=
  let neg := down != bit p.cfg 2
  if p.invalid then p
  else if p.edges ≠ 0 ∧ t < p.tLast + 40 then p.overrateNow
  else
    { p with
      count := if neg then p.count - 1 else p.count + 1
      interval := if p.edges ≠ 0 ∧ neg = p.dir then satNs (t - p.tLast) else 0
      tLast := t, edges := min 2 (p.edges + 1), dir := neg, dirN := if neg = p.dir then p.dirN else p.dirN + 1 }

/-- Place of the levels of A and B in the quadrature order A, A and B, B, none. Log 27 (PRESUMED). -/
def quadIndex (l : BitVec 3) : Nat :=
  match l.getLsbD 0, l.getLsbD 1 with
  | false, false => 0
  | true, false => 1
  | true, true => 2
  | false, true => 3

/-- Index of a Hall state in the positive order 1, 3, 2, 6, 4, 5 (R235). -/
def hallIndex (v : Nat) : Option Nat :=
  match v with
  | 1 => some 0
  | 3 => some 1
  | 2 => some 2
  | 6 => some 3
  | 4 => some 4
  | 5 => some 5
  | _ => none

/-- A Hall fault: the count stays (R235). -/
def FbPort.hallFault (p : FbPort) : FbPort := { p with hallInvalid := true, hallGood := 0, hallN := p.hallN + 1 }

/-- A single-step Hall change; the second in a row clears HALL_INVALID (R235). -/
def FbPort.hallStep (p : FbPort) (t : Nat) (down : Bool) : FbPort :=
  let p1 := p.edge t down
  { p1 with hallGood := p.hallGood + 1, hallInvalid := p.hallInvalid && p.hallGood = 0 }

/-- A rising edge of Z where it is used: ZLATCH takes the count, after a counted edge of the same cycle (R239, R255). -/
def FbPort.zEdge (p : FbPort) (l0 l1 : BitVec 3) : FbPort :=
  if bit p.cfg 3 && !l0.getLsbD 2 && l1.getLsbD 2 then
    { p with zLatch := p.count, zSeen := true, zN := p.zN + 1 }
  else p

/-- The filtered levels of a port change at an instant (R232 to R235). Log 27 (PRESUMED). -/
def FbPort.change (p : FbPort) (l : BitVec 3) (t : Nat) : FbPort :=
  let p1 := { p with levels := l }
  match p.kind with
  | 0 =>
    let q := match (quadIndex l + 4 - quadIndex p.levels) % 4 with
      | 1 => p1.edge t false
      | 3 => p1.edge t true
      | 2 => p1.overrateNow
      | _ => p1
    q.zEdge p.levels l
  | 1 =>
    if l = p.levels then p1
    else match hallIndex p.levels.toNat, hallIndex l.toNat with
      | some a, some b =>
        if (b + 6 - a) % 6 = 1 then p1.hallStep t false
        else if (b + 6 - a) % 6 = 5 then p1.hallStep t true
        else p1.hallFault
      | _, none => p1.hallFault
      | none, some _ => p1
  | 3 =>
    let p2 := if l.getLsbD 1 != p.levels.getLsbD 1 then { p1 with dirAt := t } else p1
    if !p.levels.getLsbD 0 && l.getLsbD 0 then
      if p2.dirAt ≠ 0 ∧ t < p2.dirAt + 20 then p2.overrateNow else p2.edge t (l.getLsbD 1)
    else p2
  | _ => p1

/-- A setting comes into force: one that differs makes the next reading a first one; a port that becomes a Hall port while its
inputs stand in an invalid state has a Hall fault (R235, R236). -/
def FbPort.setCfg (p : FbPort) (v : Word) : FbPort :=
  let q := if p.cfg = v then p else { p with cfg := v, ssiFirst := true }
  if q.kind = 1 ∧ p.kind ≠ 1 ∧ (hallIndex q.levels.toNat).isNone = true then q.hallFault else q

/-! ## Repeat outputs (R249) -/

/-- Pins of a regenerated quadrature at a phase. Log 33 (DEDUCED). -/
def quadPins (phase : Nat) : BitVec 3 :=
  match phase % 4 with
  | 0 => 0
  | 1 => 1
  | 2 => 3
  | _ => 2

/-- DIV of a repeat output; 0 is read as 1. -/
def Fbo.div (o : Fbo) : Nat := if field o.cfg 31 16 = 0 then 1 else field o.cfg 31 16

/-- A repeat output as its source port goes from p to q: at DIV 1 the pins as they stand before the filter, above it
regenerated; a regenerated output
holds its pins while the count is INVALID; off, or from an SSI port, the pins are low (R249). Log 33 (DEDUCED). -/
def Fbo.follow (o : Fbo) (p q : FbPort) : Fbo :=
  if !bit o.cfg 4 || q.kind == 2 then { o with pins := 0 }
  else if o.div = 1 then
    { o with pins := if q.kind == 3 then q.pins &&& 3 else q.pins }
  else if q.invalid then o
  else
    let r := o.rem + (q.count - p.count).toInt
    let d : Int := o.div
    match q.kind with
    | 0 =>
      let (r1, ph) := if d ≤ r then (r - d, o.phase + 1) else if r ≤ -d then (r + d, o.phase + 3) else (r, o.phase)
      { o with rem := r1, phase := ph % 4, pins := quadPins ph }
    | 3 =>
      let out := decide (d ≤ r) || decide (r ≤ -d)
      let r1 := if d ≤ r then r - d else if r ≤ -d then r + d else r
      let stepPin := out || (o.pins.getLsbD 0 && q.levels.getLsbD 0)
      { o with rem := r1, pins := BitVec.ofNat 3 (flagAt stepPin 0 + flagAt (q.levels.getLsbD 1) 1) }
    | _ => { o with pins := 0 }

/-- Every repeat output of a port follows its change. -/
def State.follow (s : State) (n : Nat) (p q : FbPort) : State :=
  s.mapIo fun io => { io with fbo := io.fbo.map fun o => if field o.cfg 3 0 == n then o.follow p q else o }

/-- A write of FBK_RCFGn: the pins take their level under the new setting. -/
def State.fboWrite (s : State) (n : Nat) (v : Word) : State :=
  s.mapIo fun io =>
    { io with fbo := setAt io.fbo n fun o =>
        let o1 := { o with cfg := v &&& 0xFFFF001F }
        let p := s.fb (field v 3 0)
        o1.follow p p }

/-! ## A port takes a new value -/

/-- A local port takes a new value: its direction event, its repeat outputs and the local compare units follow (R247, R249,
R252). -/
def State.portChange (s : State) (n : Nat) (p q : FbPort) (t : Nat) : State :=
  let s1 := (s.mapFb n fun _ => q).follow n p q
  let s2 := if q.dirN = p.dirN then s1 else s1.raise 3 n
  if q.count = p.count then s2 else s2.lcmpEdges n p.count q.count t


/-! ## SSI (R236) -/

/-- A Gray-coded reading of at most 40 bits converted. -/
def grayToBinary (g : Nat) : Nat :=
  let a := g ^^^ (g >>> 32)
  let b := a ^^^ (a >>> 16)
  let c := b ^^^ (b >>> 8)
  let d := c ^^^ (c >>> 4)
  let e := d ^^^ (d >>> 2)
  e ^^^ (e >>> 1)

/-- A raw reading of a number of bits, converted where it is Gray-coded. -/
def ssiReading (bits : Nat) (gray : Bool) (raw : Nat) : Nat :=
  let r := raw % 2 ^ bits
  if gray then grayToBinary r else r

/-- The signed difference of two readings, modulo 2^bits. -/
def ssiDiff (bits new old : Nat) : Int := signed bits ((new + 2 ^ bits - old) % 2 ^ bits)

/-- A reading stands the difference check; a first reading is not put to it. -/
def ssiNear (bits new : Nat) : Option Nat → Bool
  | none => true
  | some old => decide ((ssiDiff bits new old).natAbs ≤ 2 ^ (bits - 2))

/-- A transfer of an SSI port: the reading is rejected with SSI_ERR, or accepted and the counter advances by the signed
difference; while the count is INVALID the counter does not change (R234, R236). Log 28 (DEDUCED). -/
def FbPort.ssi (p : FbPort) (t : Nat) (ready : Bool) (raw : Nat) (tailLow : Bool) : FbPort :=
  let bits := ssiBits (field p.cfg 17 12)
  let v := ssiReading bits (bit p.cfg 18) raw
  let p1 := { p with clkIdle := false }
  if !ready || !tailLow || !(p.ssiFirst || ssiNear bits v p.ssiPrev) then
    { p1 with ssiErr := true, ssiBad := true, badN := p.badN + 1 }
  else
    let d := match p.ssiPrev with
      | some old => ssiDiff bits v old
      | none => 0
    let d := if bit p.cfg 2 then -d else d
    { p1 with
      count := if p.invalid then p.count else p.count + BitVec.ofInt 32 d
      ssiPrev := some v, ssiAbs := v, ssiBad := false, ssiFirst := false, ssiAt := if d = 0 then p.ssiAt else t
      dir := if d = 0 then p.dir else decide (d < 0) }

/-- SSI_TRANSFER: the transfer of a base cycle on an SSI port. -/
def execSsiTransfer (port : Nat) (ready : Bool) (bits : BitVec 40) (tailLow : Bool) (s : State) :
    Host.Outcome State Fault Refusal :=
  let p := s.fb port
  if 16 ≤ port ∨ p.kind ≠ 2 then .next s
  else .next (s.portChange port p (p.ssi s.time ready bits.toNat tailLow) s.time)

/-! ## Records of local ports (R239, R240) -/

/-- The latches of a local port at t(k) (R239, R286). -/
def FbPort.sample (p : FbPort) (tk : Nat) : FbPort :=
  { p with
    latCount := p.count, latStat := p.stat, latZ := p.zLatch, latInterval := p.interval, latDir := p.dir
    latAge := if p.kind = 2 then p.lSsi else if p.edges = 0 then 2 ^ 32 - 1 else satNs (tk - p.tLast)
    latDirN := p.dirN, latZN := p.zN, latBadN := p.badN, latHallN := p.hallN, latBad := p.kind == 2 && p.ssiBad
    latAbs := if p.kind = 2 then p.ssiAbs else if p.kind = 1 then p.levels.toNat else 0 }

/-- Word 1 of a feedback record. -/
def recStat (kind : Nat) (dir dirEvt invalid overrate hall ssiErr z : Bool) : Word :=
  BitVec.ofNat 32 (kind + flagAt dir 2 + flagAt dirEvt 3 + flagAt invalid 4 + flagAt overrate 5 + flagAt hall 6
    + flagAt ssiErr 7 + flagAt z 8)

/-- The feedback record of a local port from its latches; `dirSeen`, `zSeen` and `badSeen` are the changes of DIR and of ZLATCH
and the rejected readings that the last record of the axis and role has shown. A reading rejected in this cycle makes the
record INVALID; SSI_ERR covers the time since that last record (R236, R239). -/
def FbPort.record (p : FbPort) (dirSeen zSeen badSeen : Nat) : List Word :=
  [p.latCount,
   recStat p.kind p.latDir (p.latDirN != dirSeen) (bit p.latStat 0 || p.latBad) (bit p.latStat 1) (bit p.latStat 2)
     (p.kind == 2 && p.latBadN != badSeen) (p.latZN != zSeen),
   BitVec.ofNat 32 p.latAge, BitVec.ofNat 32 p.latInterval, if p.kind = 1 then 0 else BitVec.ofNat 32 p.latAbs,
   BitVec.ofNat 32 (if p.kind = 1 then p.latAbs else p.latAbs / 2 ^ 32), p.latZ, 0]

/-! ## The decoder of station raw forms (R237, R238) -/

/-- The channel state of an axis and role. -/
structure Chan where
  ssiCfg : Word
  stat : Word
  prev : Option Nat
  raw : Option (Word × Nat)
  cnt : Word
  hall : Bool
  good : Nat
  first : Bool
  deriving DecidableEq, Repr

/-- The channel of a role of an axis: false primary, true load. -/
def Axis.chan (a : Axis) (load : Bool) : Chan :=
  if load then
    { ssiCfg := a.ssi1, stat := a.stat1, prev := a.chanSsi1, raw := a.chanRaw1, cnt := a.chanCnt1, hall := a.chanHall1,
      good := a.chanGood1, first := a.chanFirst1 }
  else
    { ssiCfg := a.ssi0, stat := a.stat0, prev := a.chanSsi0, raw := a.chanRaw0, cnt := a.chanCnt0, hall := a.chanHall0,
      good := a.chanGood0, first := a.chanFirst0 }

/-- The channel of a role put back. -/
def Axis.setChan (a : Axis) (load : Bool) (c : Chan) : Axis :=
  if load then
    { a with stat1 := c.stat, chanSsi1 := c.prev, chanRaw1 := c.raw, chanCnt1 := c.cnt, chanHall1 := c.hall,
             chanGood1 := c.good, chanFirst1 := c.first }
  else
    { a with stat0 := c.stat, chanSsi0 := c.prev, chanRaw0 := c.raw, chanCnt0 := c.cnt, chanHall0 := c.hall,
             chanGood0 := c.good, chanFirst0 := c.first }

/-- The channel of a role starts afresh with the enrolment of its station or the START or swap that adds the axis: its next SSI
reading is a first reading, and its next raw form has none before it (R236, R238). -/
def Axis.freshChan (a : Axis) (load : Bool) : Axis :=
  a.setChan load { a.chan load with first := true, raw := none }

/-- Hall validity of a raw form: a valid state whose index has moved as the count has, modulo 6 (R235, R238). -/
def Chan.hallCheck (c : Chan) (count : Word) (state : Nat) : Chan :=
  let c1 := { c with raw := some (count, state) }
  let fault := { c1 with hall := true, good := 0, stat := setBit c1.stat 2 }
  match hallIndex state with
  | none => fault
  | some b => match c.raw with
    | none => c1
    | some (oldCount, oldState) => match hallIndex oldState with
      | none => c1
      | some a =>
        let dc := (count - oldCount).toInt
        if (dc - ((b : Int) - a)) % 6 ≠ 0 then fault
        else if dc = 0 then c1
        else if dc = 1 ∨ dc = -1 then { c1 with hall := c.hall && c.good = 0, good := c.good + 1 }
        else { c1 with good := 0 }

/-- A station SSI reading converted and checked; SSI_ERR of the raw form rejects it (R236, R238). -/
def Chan.ssi (c : Chan) (w0 w1 : Word) : Chan × Bool :=
  let bits := ssiBits (field c.ssiCfg 5 0)
  let v := ssiReading bits (bit c.ssiCfg 6) (w0.toNat + field w1 7 0 * 2 ^ 32)
  if bit w1 11 || !(c.first || ssiNear bits v c.prev) then ({ c with stat := setBit c.stat 1 }, true)
  else
    let d := match c.prev with
      | some old => ssiDiff bits v old
      | none => 0
    ({ c with prev := some v, first := false, cnt := c.cnt + BitVec.ofInt 32 d }, false)

/-- A station raw form decoded: the channel after it, and the feedback record (R238, R239). `supported` is false where the
station's FORMS has a bit for the kind and it is clear. -/
def Chan.decode (c : Chan) (raw : List Word) (supported : Bool) : Chan × List Word :=
  let w := fun i => raw.getD i 0
  let w1 := w 1
  let form := field w1 17 16
  let c1 := if bit w1 10 then { c with stat := setBit c.stat 0 } else c
  let (c2, rejected) := if form = 2 then c1.ssi (w 0) w1 else (c1, false)
  let c3 := if form = 1 then c2.hallCheck (w 0) (field w1 2 0) else c2
  let invalid := bit c3.stat 0 || rejected || form != field c.ssiCfg 8 7 || !supported
  let v := c3.prev.getD 0
  (c3,
   [if form = 2 then c3.cnt else w 0,
    recStat form (bit w1 8) (bit w1 9) invalid (bit c3.stat 0) (form == 1 && c3.hall) rejected (bit w1 12),
    if form = 2 then 0 else w 2, w 3,
    if form = 2 then BitVec.ofNat 32 v else 0,
    if form = 2 then BitVec.ofNat 32 (v / 2 ^ 32) else if form = 1 then BitVec.ofNat 32 (field w1 2 0) else 0,
    w 4, 0])

/-- A feedback record written into the page of an axis, primary or load; DIR_EVT of a primary record raises its event
(R239, R247). -/
def State.writeRecord (s : State) (axis : Nat) (load : Bool) (r : List Word) : State :=
  let s1 := s.setPageWords axis (if load then 0x40 else 0x20) r
  if !load && bit (r.getD 1 0) 3 then s1.raise 3 (16 + axis) else s1

/-- What the records of a role have shown of a local port, and SSI_ERR and HALL_INVALID of its FBK_AXSTAT (R239, R258). -/
def Axis.tookRecord (a : Axis) (load : Bool) (p : FbPort) : Axis :=
  let seen := fun (stat : Word) (bad hall : Nat) =>
    let s1 := if p.kind == 2 && p.latBadN != bad then setBit stat 1 else stat
    if p.kind == 1 && p.latHallN != hall then setBit s1 2 else s1
  if load then
    { a with stat1 := seen a.stat1 a.badSeen1 a.hallSeen1, dirSeen1 := p.latDirN, zSeen1 := p.latZN, badSeen1 := p.latBadN,
             hallSeen1 := p.latHallN }
  else
    { a with stat0 := seen a.stat0 a.badSeen0 a.hallSeen0, dirSeen0 := p.latDirN, zSeen0 := p.latZN, badSeen0 := p.latBadN,
             hallSeen0 := p.latHallN }

/-- The record of a local port written for an axis and role at its sample cycle. -/
def State.writeLocalRecord (s : State) (axis : Nat) (load : Bool) (port : Nat) : State :=
  let a := s.axis axis
  let p := s.fb port
  let r := p.record (if load then a.dirSeen1 else a.dirSeen0) (if load then a.zSeen1 else a.zSeen0)
    (if load then a.badSeen1 else a.badSeen0)
  (s.writeRecord axis load r).mapAxis axis fun a => a.tookRecord load p

/-! ## Trigger inputs (R248) -/

/-- MODE of a trigger input. -/
def Trg.mode (t : Trg) : Nat := field t.cfg 2 0

/-- The filtered input of a trigger at its active level; an input that is off has none. Log 31 (DEDUCED). -/
def Trg.active (t : Trg) : Bool :=
  if t.mode = 0 then false else if t.mode = 2 ∨ t.mode = 5 then !t.level else t.level

/-- Trigger input n. -/
def State.trg (s : State) (n : Nat) : Trg := s.io.trg.getD n Trg.reset
/-- Trigger input n changed. -/
def State.mapTrg (s : State) (n : Nat) (f : Trg → Trg) : State := s.mapIo fun io => { io with trg := setAt io.trg n f }

/-- A firing: its time, the counter of its latch source, and its event (R248, R255). Log 31 (DEDUCED). -/
def State.trgFire (s : State) (n : Nat) (t : Nat) : State :=
  let g := s.trg n
  let p := s.fb (field g.cfg 15 12)
  let latch := bit g.cfg 16
  ((s.mapTrg n fun g =>
    { g with
      fired := true, time := t, firings := g.firings + 1
      latch := if latch then p.count else g.latch
      latchInvalid := g.latchInvalid || (latch && p.invalid)
      armed := decide (g.mode ≤ 3) }).raise 6 n).acqTrigger n t

/-- A change of the level of a trigger input fires it as MODE selects (R248). -/
def Trg.fires (g : Trg) (level : Bool) : Bool :=
  match g.mode with
  | 1 => !g.level && level
  | 2 => g.level && !level
  | 3 => g.level != level
  | 4 => g.armed && level
  | 5 => g.armed && !level
  | _ => false

/-- A filtered change of a trigger input at an instant; a level mode is armed again once the input is inactive. -/
def State.trgChange (s : State) (n : Nat) (level : Bool) (t : Nat) : State :=
  let g := s.trg n
  let inactive := (g.mode == 4 && !level) || (g.mode == 5 && level)
  let s1 := s.mapTrg n fun g => { g with level := level, armed := g.armed || inactive }
  if g.fires level then s1.trgFire n t else s1

/-- A write of FBK_TCFGn arms the input; a level mode that finds its level active fires at once (R248). Log 31 (DEDUCED). -/
def State.trgWrite (s : State) (n : Nat) (v : Word) : State :=
  let s1 := s.mapTrg n fun g => { g with cfg := v &&& 0x0001FFF7 }
  let g := s1.trg n
  if (g.mode = 4 ∨ g.mode = 5) ∧ g.active then s1.trgFire n s.time
  else s1.mapTrg n fun g => { g with armed := decide (1 ≤ g.mode ∧ g.mode ≤ 5) }

/-- MIN_PW of a trigger input, ns. -/
def Trg.minPw (g : Trg) : Nat := field g.cfg 11 4 * 10

/-- TRIGGER_INPUT: the pin of a trigger input at a level, held since the pin edge. A pulse shorter than MIN_PW × 10 ns is
rejected; an accepted edge is dated at the pin (R233, R248). Log 30 (DEDUCED). -/
def execTriggerInput (n : Nat) (level : Bool) (heldNs : Nat) (s : State) : Host.Outcome State Fault Refusal :=
  let g := s.trg n
  if 16 ≤ n ∨ g.level = level ∨ heldNs < g.minPw then .next s
  else .next (s.trgChange n level (s.time - g.minPw))

/-! ## Clears (R234, R238, R244) -/

/-- FBK_PSTATn.OVERRATE cleared: the count is valid again, and R251 is applied afresh (R234, R252). -/
def State.portOverrateClear (s : State) (n : Nat) : State :=
  if (s.fb n).overrate then
    (s.mapFb n fun p => { p with overrate := false, invalid := false }).lcmpAfresh n
  else s

/-- Bits of FBK_AXSTAT of the selected axis and role cleared. -/
def State.axStatClear (s : State) (v : Word) : State :=
  let load := bit s.io.axSel 8
  s.mapAxis (field s.io.axSel 7 0) fun a =>
    if load then { a with stat1 := w1c a.stat1 v 0xF } else { a with stat0 := w1c a.stat0 v 0xF }

/-- OVERRATE_CLEAR. -/
def execOverrateClear (_src : Source) (which : OverrateOf) (s : State) : Host.Outcome State Fault Refusal :=
  match which with
  | .port n => .next (s.portOverrateClear n)
  | .axis => .next (s.axStatClear 1)

/-- REF_LOST_CLEAR: FBK_AXSTAT.REF_LOST of the selected axis and role cleared (R244). -/
def execRefLostClear (_src : Source) (s : State) : Host.Outcome State Fault Refusal := .next (s.axStatClear 8)

end Sys2Proof.Machine
end

