-- ==== Sys2Proof/Machine/Cycle.lean ====
section
/-!
DEFINITION. The control cycle (04_control_cycle): the local sample and apply at t(k), the local-sample event, the deadline
with its stops and overruns, and the pulses of the local STEP/DIR pairs (08_profiles_and_steps, R228, R229). The return
due instant stands in Machine/Tabna.lean and the clearing point in Machine/Clearing.lean.
-/
namespace Sys2Proof.Machine
open Sys2Proof

/-! ## Axes of the Charter in force -/

/-- Base cycle k is a sample cycle of an axis (R94). -/
def Charter.samples (c : Charter) (r : AxisRec) (k : Nat) : Bool := k % c.axisDiv r == r.phase

/-- The instant of the deadline of base cycle k is that of an axis's job, and its clearing point releases its output
(R94). -/
def Charter.closes (c : Charter) (r : AxisRec) (k : Nat) : Bool := (k + 1) % c.axisDiv r == r.phase

/-- Parameter i of the first STEP block of an axis, from the shape word as 0; 0 where there is none. -/
def Charter.stepParam (c : Charter) (a i : Nat) : Nat :=
  match c.chain? a with
  | none => 0
  | some ch => match ch.blocks.find? (fun b => b.id == 0x0140) with
    | some b => (b.params.getD i 0).toNat
    | none => 0

/-! ## STEP/DIR pairs (R228, R229) -/


/-- STEP_PULSE: the pulse that is due first is emitted where PULSE_NS has passed since STEP fell and DIR has stood for
DIR_SETUP_NS; where DIR stands the other way it is turned first (R229). Log 34 (DEDUCED). -/
def StepPair.pulse (p : StepPair) (now : Nat) : StepPair :=
  match p.due with
  | [] => p
  | (neg, n) :: t =>
    if p.step then p
    else if p.dir ≠ neg then { p with dir := neg, dirAt := now }
    else if now < p.dirAt + p.setupNs ∨ now < p.fallAt + p.pulseNs then p
    else { p with step := true, riseAt := now, due := if n ≤ 1 then t else (neg, n - 1) :: t }

/-- A pair changed. Log 34 (DEDUCED). -/
def State.mapStep (s : State) (n : Nat) (f : StepPair → StepPair) : State :=
  s.mapIo fun io => { io with step := setAt io.step n f }

/-- STEP_PULSE. -/
def execStepPulse (pair : Nat) (s : State) : Host.Outcome State Fault Refusal :=
  .next (s.mapStep pair fun p => p.pulse s.time)

/-- STEP_PULSE_END: STEP falls once it has been high for PULSE_NS. -/
def execStepPulseEnd (pair : Nat) (s : State) : Host.Outcome State Fault Refusal :=
  .next (s.mapStep pair fun p =>
    if p.step && decide (p.riseAt + p.pulseNs ≤ s.time) then { p with step := false, fallAt := s.time } else p)

/-- The output words released for a local Mode S axis applied to its pair at t(k+1) (R90, R228). -/
def State.applyStep (s : State) (c : Charter) (r : AxisRec) : State :=
  let a := s.axis r.axis
  s.mapStep (field r.target 3 0) fun p =>
    { p with inc := if bit a.out1 16 then a.out0.toInt else 0, en := bit a.out1 16
             pulseNs := c.stepParam r.axis 2, setupNs := c.stepParam r.axis 3 }

/-- A local pair stops: no axis drives it any more (R85). -/
def State.stopStep (s : State) (target : Word) : State :=
  if isLocal target then s.mapStep (field target 3 0) fun p => { p with inc := 0, en := false } else s

/-! ## The local sample (R89, R90, R155, R239) -/

/-- The latches of local I/O at t(k). -/
def Local.sample (io : Local) (tk : Nat) (gpio : Word) : Local :=
  { io with
    fb := io.fb.map fun p => p.sample tk
    gpioIn := gpio, gpioLat := gpio, ainLat := io.ain
    trg := io.trg.map fun t => { t with latFirings := t.firings }
    step := io.step.map fun p => { p with lat := p.acc }, latTk := tk }

/-- The outputs released at the clearing point driven by the GPIO pins (R90, R286). -/
def Local.apply (io : Local) : Local := { io with gpioOut := io.gpioOutR, gpioEn := io.gpioEnR }

/-- Bit i of a page word. -/
def State.setPageBit (s : State) (axis off i : Nat) (b : Bool) : State :=
  let w := s.page axis off
  s.setPage axis off (if b then setBit w i else clearBit w i)

/-- The record of a role written at a sample cycle where a local port carries it, with its INVALID bit (R155, R240). -/
def State.localRole (s : State) (a : Nat) (load : Bool) (w : Word) (present : Bool) : State :=
  if present && isLocal w then
    let s1 := s.writeLocalRecord a load (field w 3 0)
    s1.setPageBit a 4 (if load then 2 else 1) (bit (s1.page a (if load then 0x44 else 0x24)) 4)
  else s

/-- The input words that local I/O writes for an axis at its sample cycle (R155). -/
def State.localInputs (s : State) (r : AxisRec) : State :=
  let a := r.axis
  let s1 := (s.localRole a false r.primary (r.mode ≠ 2)).localRole a true r.loadFb (bit r.loadFb 30)
  let pulseIn := field (s.page a (0x180 + 4 * 14)) 3 0
  let anaIn := field (s.page a (0x180 + 4 * 15)) 2 0
  let s2 := (s1.setPage a 0x60 (s1.fb pulseIn).latCount).setPage a 0x64 ((s1.io.ainLat.getD anaIn 0).setWidth 32)
  if isLocal r.target then
    let p := s2.io.step.getD (field r.target 3 0) StepPair.reset
    ((s2.setPage a 0x70 (BitVec.ofInt 32 p.lat)).setPage a 0x74 (BitVec.ofInt 32 (p.lat / 2 ^ 32))).setPageBit a 4 0 false
  else s2

/-- The sample cycle of an axis begins: its job is due. -/
def State.beginJob (s : State) (r : AxisRec) : State :=
  s.mapAxis r.axis fun a =>
    { a with jobK := s.cyc.k, jobDue := true, inTime := false, began := false, bufStop := false }

/-- A position holds a frame slot: its station is bound, or cut off by isolation and not yet absent. -/
def Position.hasSlot (q : Position) : Bool := q.st == .bound || (q.st == .isolated && q.station.isSome)

/-- Positions of a port in frame order that have a slot in the return frame of sample cycle k and in the issue frame of the
cycle before (R309, R323, R455). -/
def Port.slotPositions (p : Port) (k : Nat) : List (Nat × Position) :=
  ((List.range 16).map fun i => (i + 1, p.at (i + 1))).filter fun q =>
    q.2.hasSlot || (q.2.st == .configuring && q.2.acked && decide (q.2.effective ≤ k))

/-- Stations of the return frame of sample cycle k, by frame slot: those of the issue frame launched for it, whose RLEN the turning
station goes by; where none was launched, those that have a slot (R310, R313). -/
def Port.frameSlots (p : Port) (k : Nat) : List Nat :=
  match p.launched, p.frame with
  | true, some f => f.slots.map fun x => x.station
  | _, _ => (p.slotPositions k).filterMap fun e => e.2.station

/-- A station has a slot in the return frame of the cycle in hand. -/
def State.stationSlot (s : State) (c : Charter) (num : Nat) : Bool :=
  match c.slot? num with
  | some sl => (s.port sl.port).retSlots.contains num
  | none => false

/-- STALE and LOAD_INVALID of an axis whose stations hold no slot in the return frame of this sample cycle: no slot brings a
record, so the previous sample remains (R155). Those of a station with a slot are written with the slot. -/
def State.withoutSlot (s : State) (c : Charter) (r : AxisRec) : State :=
  let none' := fun (w : Word) => !isLocal w && !s.stationSlot c (field w 8 0)
  let s1 := if none' r.target then s.setPageBit r.axis 4 0 true else s
  if bit r.loadFb 30 && none' r.loadFb then s1.setPageBit r.axis 4 2 true else s1

/-- One axis at t(k). -/
def State.sampleAxis (s : State) (c : Charter) (r : AxisRec) : State :=
  if c.samples r s.cyc.k then
    let s1 := ((s.beginJob r).localInputs r).withoutSlot c r
    if isLocal r.target then s1.applyStep c r else s1
  else s

/-- LOCAL_SAMPLE: t(k) of the cycle in hand. Local inputs are latched with the levels of the GPIO pins, records of local
ports are written for the axes that sample, and the local outputs of the last clearing point are applied.
Log 2 (DESIGN CHOICE). -/
def execLocalSample (gpio : Word) (s : State) : Host.Outcome State Fault Refusal :=
  match s.charter with
  | none => .next s
  | some c =>
    if s.cyc.service = 0 ∨ s.cyc.sampled then .next s
    else
      let s1 := { s with
        cyc := { s.cyc with sampled := true }
        io := (s.io.sample s.cyc.tk gpio).apply
        ports := s.ports.map fun p => { p with returned := false, judged := false, retSlots := p.frameSlots s.cyc.k } }
      .next (forEach c.axes (fun r s => s.sampleAxis c r) s1)

/-- LOCAL_SAMPLE_EVENT: 200 ns after t(k) the return-arrival event of index 32 is raised, and the latched items carry the
stamp of the cycle (R90, R286). -/
def execLocalSampleEvent (s : State) : Host.Outcome State Fault Refusal :=
  if s.cyc.service = 0 ∨ !s.cyc.sampled then .next s
  else .next ((s.mapIo fun io => { io with latStamp := s.cyc.k % 2 ^ 24 }).raise 2 32 s.cyc.k)

/-! ## FEEDBACK_EDGE (R233, R255) -/

/-- The record of a local port written again for a role, because an edge dated at or before t(k) has passed the filter after it:
what the first writing showed stays shown, and only a change of DIR that it did not show raises the event. -/
def State.rewriteRecord (s : State) (axis : Nat) (load : Bool) (port : Nat) (w : Word) : State :=
  if !(isLocal w && field w 3 0 == port) then s
  else
    let a := s.axis axis
    let p := s.fb port
    let off := if load then 0x40 else 0x20
    let r := p.record (if load then a.dirSeen1 else a.dirSeen0) (if load then a.zSeen1 else a.zSeen0) p.latBadN
    let old := s.page axis (off + 4) &&& 0x188
    let s1 := (s.setPageWords axis off ([r.getD 0 0, r.getD 1 0 ||| old] ++ r.drop 2)).setPageBit axis 4
      (if load then 2 else 1) (bit (r.getD 1 0) 4)
    let s2 := if !load && bit (r.getD 1 0) 3 && !bit old 3 then s1.raise 3 (16 + axis) else s1
    s2.mapAxis axis fun a => a.tookRecord load p

/-- An edge dated at or before t(k) that has passed the filter after the latch at t(k) is counted in the record of cycle k: the
port is latched again, and the records of the axes that sample in the cycle follow (R255). LOCAL_PULSE stays as it was latched.
Log 110 (DESIGN CHOICE). -/
def State.lateEdge (s : State) (port t : Nat) : State :=
  if s.io.latTk < t ∨ !s.cyc.sampled then s
  else
    let s1 := s.mapFb port fun p => p.sample s.io.latTk
    match s.charter with
    | none => s1
    | some c => forEach (c.axes.filter fun r => c.samples r s.cyc.k) (fun (r : AxisRec) (s : State) =>
        let s2 := if r.mode ≠ 2 then s.rewriteRecord r.axis false port r.primary else s
        if bit r.loadFb 30 then s2.rewriteRecord r.axis true port r.loadFb else s2) s1

/-- FEEDBACK_EDGE: the inputs of a local port at new levels, which have been held since the pin edge. The repeat outputs at DIV 1
follow the pins; a pulse shorter than MIN_PW × 10 ns is counted and passed on no further, once for the levels that it shows;
an accepted edge is dated at the pin (R233, R249). Log 30 (DEDUCED). -/
def execFeedbackEdge (port : Nat) (levels : BitVec 3) (heldNs : Nat) (s : State) :
    Host.Outcome State Fault Refusal :=
  let p := s.fb port
  let q := { p with pins := levels }
  if 16 ≤ port then .next s
  else if heldNs < p.minPw then
    .next ((s.mapFb port fun _ => if levels = p.levels then q else { q with glitch := p.glitch + 1 }).follow port p q)
  else
    let t := s.time - p.minPw
    .next ((s.portChange port p (q.change levels t) t).lateEdge port t)

/-! ## The deadline (R101, R102, R163, R269 to R271) -/

/-- The lane that has a run of an axis in service and has not begun its commit. -/
def State.laneOfAxis (s : State) (a : Nat) : Option Nat :=
  ((indexed s.lanes).find? fun p =>
    p.2.state != .committing && (match p.2.job with
      | some j => j.axis == some a
      | none => false)).map fun p => p.1

/-- An AXIS_TASK still on its ready list at the deadline of a sample cycle is removed: the flags of its mask are cleared (R271). One
whose run the deadline has stopped already is ready again for a later one (R262, R281). -/
def Teller.removeReady (t : Teller) (n sample : Nat) : Teller :=
  match t.task? n with
  | some k =>
    if k.st == .ready && decide (k.shut ≤ sample) then
      let t1 := (t.unlist n).mapTask n fun k =>
        { k with flags := k.flags &&& ~~~k.mask, st := .waiting, arrived := none }
      { t1 with removed := t1.removed + 1, evt := setBit t1.evt 1 }
    else t
  | none => t

/-- Cause of an overrun (R101): 3 BUFFER, 1 NOT_DONE, 2 NOT_DISPATCHED. -/
def Axis.overrunCause (a : Axis) : Nat := if a.bufStop then 3 else if a.began then 1 else 2

/-- An axis overruns: its counts rise, its bit is set, and AXIS_STAT of the last job in time is published with OVERRUN
(R102, R163). -/
def State.overrun (s : State) (a : Nat) : State :=
  let s1 := s.mapAxis a fun x =>
    { x with ovrCount := min (x.ovrCount + 1) 65535, ovrConsec := min (x.ovrConsec + 1) 255
             ovrCause := x.overrunCause }
  let s2 := s1.mapCyc fun c =>
    { c with ovrTotal := c.ovrTotal + 1, ovrAxis := setBit c.ovrAxis a, evt := setBit c.evt 0 }
  s2.publish 31 (sigId 1 a 0x2D) (setBit (s.axis a).run.stat 2) (bit (s.axis a).run.stat 1) false
    ((s.axis a).jobK % 2 ^ 24)

/-- The output words frozen for an axis: those of the output area, which stands for the last job in time, unless the output has
gone off since then (R89, R98, R102, R198). -/
def State.freeze (s : State) (a : Nat) : State :=
  s.mapAxis a fun x =>
    { x with out0 := if x.outOff then 0 else s.page a 0x100, out1 := if x.outOff then 0 else s.page a 0x104, jobDue := false }

/-- One axis at its deadline: a ready task is removed, a run in service stopped, after which R262 applies to its task, an
overrun counted, and the output area frozen. No run serves this sample cycle from here on (R101, R271, R281). -/
def State.closeAxis (s : State) (c : Charter) (r : AxisRec) : State :=
  let a := r.axis
  let s1 := match c.axisTask? a with
    | some t => s.mapTeller fun q =>
        let q1 := q.removeReady t.task (s.axis a).jobK
        if (s.axis a).jobDue then q1.mapTask t.task fun k => { k with shut := (s.axis a).jobK + 1 } else q1
    | none => s
  let s2 := match s1.laneOfAxis a with
    | some l => s1.endRun l
    | none => s1
  let s3 := if (s2.axis a).jobDue && !(s2.axis a).inTime then s2.overrun a else s2
  s3.freeze a

/-- A run of a task without AXIS_TASK that has reached its run limit is stopped (R270). -/
def State.stopTask (s : State) (l : Nat) : State :=
  match (s.lane l).job with
  | none => s
  | some j =>
    if j.axis.isSome || (s.lane l).state == .committing || decide (s.tim.now < j.handedAt + j.d * s.period) then s
    else (s.endRun l).mapTeller fun t => { t with stopped := t.stopped + 1, evt := setBit t.evt 0 }

/-- The Daybook claim of an epoch is withdrawn: DBK_EPOCH_AO takes its value before the claim (R372, R425). -/
def Dbk.withdraw (d : Dbk) (claim before : Nat) : Dbk :=
  { d with
    epochAo := if d.epochAo = claim then before else d.epochAo
    pending := d.pending.filter fun r => !(r.type == 6 && r.content == [BitVec.ofNat 32 claim]) }

/-- A takeover, takeback or relinquish is abandoned, with a bit of PAR_EVT; an epoch claimed for it is withdrawn. -/
def State.abandon (s : State) (bitNo : Nat) : State :=
  let s1 := if !s.par.holds && s.par.claim != 0 then s.mapDbk fun d => d.withdraw s.par.claim s.par.epochBefore else s
  s1.mapPar fun p =>
    { p with
      takeStep := .none, claimAt := none, yields := false, claim := if p.holds then p.claim else 0
      evt := setBit p.evt bitNo }

/-- The gaining unit of a takeback does not hold the Escrow of cycle k_t − 1 by the deadline of k_t: it sends ABANDON
(R378). -/
def State.takebackDeadline (s : State) : State :=
  if (s.par.takeStep == .requested || s.par.takeStep == .acked) && !s.par.holds && s.par.takeAt == s.cyc.k then
    (s.abandon 4).sendControl 4 s.par.takeAt
  else s

/-- DEADLINE of the base cycle in hand. A unit without a Warrant runs no jobs, and nothing overruns there (R368).
Log 2 (DESIGN CHOICE). -/
def execDeadline (s : State) : Host.Outcome State Fault Refusal :=
  match s.charter with
  | none => .next s
  | some c =>
    if s.cyc.service = 0 ∨ !s.cyc.sampled ∨ s.cyc.frozen then .next s
    else
      let s0 := (s.mapCyc fun y => { y with frozen := true }).takebackDeadline
      if s.passive then .next s0
      else
        let s1 := forEach c.axes (fun r s => if c.closes r s.cyc.k then s.closeAxis c r else s) s0
        .next (forEach (List.range 16) (fun l s => s.stopTask l) s1)

end Sys2Proof.Machine
end

