-- ==== Sys2Proof/Machine/Lanes.lean ====
section
/-!
DEFINITION. The lane instructions as commands (05_lane_datapath): an instruction that a lane issues at its own address
while lane code runs, with its encoded fields; and the end of a Ledger read. TAKE and DONE stand in Machine/AxisJob.lean.
-/
namespace Sys2Proof.Machine
open Sys2Proof

/-- A lane issues instructions: lane code runs on it and it does not wait for a Ledger read (R106, R139, R140).
Log 15 (DEDUCED). -/
def Lane.issues (l : Lane) : Bool :=
  (l.state == .running || l.state == .holding) && l.stall.isNone
    && (match l.job with | some j => j.phase == .code | none => false)

/-- A job ended by a fault or a full commit buffer: the fault's bit is set with the address and the task, and the run is
over without a commit; a buffer stop sets no bit (R113, R142). -/
def State.laneStop (s : State) (n : Nat) (e : LaneStop) : State :=
  match (s.lane n).job with
  | none => s
  | some j =>
    let s1 := match e with
      | .fault b => s.mapLane n fun l => { l with fault := setBit l.fault b, faultPc := l.pc, faultTask := j.task }
      | .buffer => match j.axis with
        | some a => s.mapAxis a fun x => { x with bufStop := x.bufStop || x.jobK == j.k }
        | none => s
    s1.endRun n

/-- A lane that has come back to the chain runner is ready for DONE (R147, R148). -/
def Lane.settle (l : Lane) : Lane :=
  if inRom l.pc && l.ret.isEmpty then
    { l with job := l.job.map fun j => { j with phase := .finished, n15 := l.n.getD 15 0 } }
  else l

/-- An instruction of lane code issued by lane n: it is fetched from code RAM, sequential flow into lane ROM raising PRIV
and any other address ILLEGAL (R108); it changes its lane, or ends the job. Log 15 (DEDUCED). -/
def State.issue (s : State) (n : Nat) (op : Lane → LaneRes Lane) : State :=
  let l := s.lane n
  if !l.issues then s
  else if inRom l.pc then s.laneStop n (.fault fPriv)
  else if !fetchable l.pc then s.laneStop n (.fault fIllegal)
  else
    match op l with
    | .ok l' => s.mapLane n fun _ => l'.settle
    | .error e => s.laneStop n e

/-- An instruction that draws free values where its result is not stated; one that faults, or that no lane issues, draws none. -/
def State.issueOpen (s : State) (n : Nat) (k : Lane → Nat) (op : Lane → LaneRes Lane) : State :=
  let l := s.lane n
  match op l with
  | .ok _ => if l.issues && decide (l.pc < 0x4000) then (s.issue n op).drawn (k l) else s.issue n op
  | .error _ => s.issue n op

/-- NOP. -/
def execNop (lane : Nat) (f : PFields) (s : State) : Host.Outcome State Fault Refusal :=
  .next (s.issue lane (laneNop (s.blockTable lane) f))

/-- MPY4. -/
def execMpy4 (lane : Nat) (f : PFields) (s : State) : Host.Outcome State Fault Refusal :=
  .next (s.issue lane (laneMpy4 (s.blockTable lane) f))

/-- MAC4. -/
def execMac4 (lane : Nat) (f : PFields) (s : State) : Host.Outcome State Fault Refusal :=
  .next (s.issue lane (laneMac4 (s.blockTable lane) f))

/-- MSU4. -/
def execMsu4 (lane : Nat) (f : PFields) (s : State) : Host.Outcome State Fault Refusal :=
  .next (s.issue lane (laneMsu4 (s.blockTable lane) f))

/-- MPY. -/
def execMpy (lane : Nat) (f : PFields) (s : State) : Host.Outcome State Fault Refusal :=
  .next (s.issue lane (laneMpy (s.blockTable lane) f))

/-- MAC. -/
def execMac (lane : Nat) (f : PFields) (s : State) : Host.Outcome State Fault Refusal :=
  .next (s.issue lane (laneMac (s.blockTable lane) f))

/-- MSU. -/
def execMsu (lane : Nat) (f : PFields) (s : State) : Host.Outcome State Fault Refusal :=
  .next (s.issue lane (laneMsu (s.blockTable lane) f))

/-- ADL. -/
def execAdl (lane : Nat) (f : PFields) (s : State) : Host.Outcome State Fault Refusal :=
  .next (s.issue lane (laneAdl (s.blockTable lane) f))

/-- ADDA. -/
def execAdda (lane : Nat) (f : PFields) (s : State) : Host.Outcome State Fault Refusal :=
  .next (s.issue lane (laneAdda (s.blockTable lane) f))

/-- SUBA. -/
def execSuba (lane : Nat) (f : PFields) (s : State) : Host.Outcome State Fault Refusal :=
  .next (s.issue lane (laneSuba (s.blockTable lane) f))

/-- NEGA. -/
def execNega (lane : Nat) (f : PFields) (s : State) : Host.Outcome State Fault Refusal :=
  .next (s.issue lane (laneNega (s.blockTable lane) f))

/-- CLRA. -/
def execClra (lane : Nat) (f : PFields) (s : State) : Host.Outcome State Fault Refusal :=
  .next (s.issue lane (laneClra (s.blockTable lane) f))

/-- SHA. -/
def execSha (lane : Nat) (f : PFields) (s : State) : Host.Outcome State Fault Refusal :=
  .next (s.issue lane (laneSha (s.blockTable lane) f))

/-- LDA. -/
def execLda (lane : Nat) (f : PFields) (s : State) : Host.Outcome State Fault Refusal :=
  .next (s.issue lane (laneLda (s.blockTable lane) f))

/-- SHAE. -/
def execShae (lane : Nat) (f : PFields) (s : State) : Host.Outcome State Fault Refusal :=
  .next (s.issueOpen lane (fun l => if shaeOpen f l then 2 else 0)
    (laneShae (s.blockTable lane) s.free (Config.freeValue (s.freeCount + 1)) f))

/-- RND. -/
def execRnd (lane : Nat) (f : PFields) (s : State) : Host.Outcome State Fault Refusal :=
  .next (s.issue lane (laneRnd (s.blockTable lane) f))

/-- RNDE. -/
def execRnde (lane : Nat) (f : PFields) (s : State) : Host.Outcome State Fault Refusal :=
  .next (s.issue lane (laneRnde (s.blockTable lane) f))

/-- NRND. -/
def execNrnd (lane : Nat) (f : PFields) (s : State) : Host.Outcome State Fault Refusal :=
  .next (s.issue lane (laneNrnd (s.blockTable lane) f))

/-- EXPA. -/
def execExpa (lane : Nat) (f : PFields) (s : State) : Host.Outcome State Fault Refusal :=
  .next (s.issue lane (laneExpa (s.blockTable lane) f))

/-- RSC. -/
def execRsc (lane : Nat) (f : PFields) (s : State) : Host.Outcome State Fault Refusal :=
  .next (s.issue lane (laneRsc (s.blockTable lane) f))

/-- BXCLR. -/
def execBxclr (lane : Nat) (f : PFields) (s : State) : Host.Outcome State Fault Refusal :=
  .next (s.issue lane (laneBxclr (s.blockTable lane) f))

/-- SHLB. -/
def execShlb (lane : Nat) (f : PFields) (s : State) : Host.Outcome State Fault Refusal :=
  .next (s.issue lane (laneShlb (s.blockTable lane) f))

/-- LI. -/
def execLi (lane : Nat) (f : IFields) (s : State) : Host.Outcome State Fault Refusal :=
  .next (s.issue lane (laneLi f))

/-- MOV. -/
def execMov (lane : Nat) (f : IFields) (s : State) : Host.Outcome State Fault Refusal :=
  .next (s.issueOpen lane (fun _ => if movOpen f then 1 else 0) (laneMov s.free f))

/-- ADDN. -/
def execAddn (lane : Nat) (f : IFields) (s : State) : Host.Outcome State Fault Refusal :=
  .next (s.issue lane (laneAddn f))

/-- SUBN. -/
def execSubn (lane : Nat) (f : IFields) (s : State) : Host.Outcome State Fault Refusal :=
  .next (s.issue lane (laneSubn f))

/-- ANDN. -/
def execAndn (lane : Nat) (f : IFields) (s : State) : Host.Outcome State Fault Refusal :=
  .next (s.issue lane (laneAndn f))

/-- ORN. -/
def execOrn (lane : Nat) (f : IFields) (s : State) : Host.Outcome State Fault Refusal :=
  .next (s.issue lane (laneOrn f))

/-- XORN. -/
def execXorn (lane : Nat) (f : IFields) (s : State) : Host.Outcome State Fault Refusal :=
  .next (s.issue lane (laneXorn f))

/-- SHLN. -/
def execShln (lane : Nat) (f : IFields) (s : State) : Host.Outcome State Fault Refusal :=
  .next (s.issue lane (laneShln f))

/-- SARN. -/
def execSarn (lane : Nat) (f : IFields) (s : State) : Host.Outcome State Fault Refusal :=
  .next (s.issue lane (laneSarn f))

/-- ADDE. -/
def execAdde (lane : Nat) (f : IFields) (s : State) : Host.Outcome State Fault Refusal :=
  .next (s.issue lane (laneAdde f))

/-- IMUL. -/
def execImul (lane : Nat) (f : IFields) (s : State) : Host.Outcome State Fault Refusal :=
  .next (s.issue lane (laneImul f))

/-- IDIV. -/
def execIdiv (lane : Nat) (f : IFields) (s : State) : Host.Outcome State Fault Refusal :=
  .next (s.issueOpen lane (fun l => if idivOpen f l then 1 else 0) (laneIdiv s.free f))

/-- MINE. -/
def execMine (lane : Nat) (f : IFields) (s : State) : Host.Outcome State Fault Refusal :=
  .next (s.issue lane (laneMine f))

/-- PLD. -/
def execPld (lane : Nat) (f : IFields) (s : State) : Host.Outcome State Fault Refusal :=
  .next (s.issue lane (lanePld (s.blockTable lane) f))

/-- PST. -/
def execPst (lane : Nat) (f : IFields) (s : State) : Host.Outcome State Fault Refusal :=
  .next (s.issue lane (lanePst f))

/-- PADD. -/
def execPadd (lane : Nat) (f : IFields) (s : State) : Host.Outcome State Fault Refusal :=
  .next (s.issue lane (lanePadd f))

/-- PSUB. -/
def execPsub (lane : Nat) (f : IFields) (s : State) : Host.Outcome State Fault Refusal :=
  .next (s.issue lane (lanePsub f))

/-- PEXT. -/
def execPext (lane : Nat) (f : IFields) (s : State) : Host.Outcome State Fault Refusal :=
  .next (s.issue lane (lanePext f))

/-- PACC. -/
def execPacc (lane : Nat) (f : IFields) (s : State) : Host.Outcome State Fault Refusal :=
  .next (s.issue lane (lanePacc f))

/-- PBF. -/
def execPbf (lane : Nat) (f : IFields) (s : State) : Host.Outcome State Fault Refusal :=
  .next (s.issue lane (lanePbf f))

/-! ## Ledger access by lanes (R140, R141, R297) -/

/-- Whether a lane's read is urgent, by its instruction or its CLASS record: while the lane has urgent budget left in the base
cycle (R140, R297). Log 18 (DEDUCED). -/
def State.readUrgent (s : State) (n : Nat) (wish : Bool) : Bool :=
  (wish || (s.arb.reqState n).cls == 0) && decide ((s.lane n).urgentUsed < s.arb.urgentBeats)

/-- A Ledger read issued: the lane stalls, the read joins the requests of its lane, and an urgent read uses its beats of
the lane's budget; a wish for urgency that the budget no longer holds takes the class of the CLASS record, normal where that is
urgent, and sets URGENT_SPENT (R140, R297). Log 18 (DEDUCED). -/
def State.issueRead (s : State) (n : Nat) (wish : Bool) (r : LaneRead) : State :=
  let u := s.readUrgent n wish
  let used := (s.lane n).urgentUsed + r.beats
  let s1 := s.mapLane n fun l =>
    { l with stall := some r, got := none, urgentUsed := if u then used else l.urgentUsed }
  let s2 := forEach r.ids (fun id t => t.mapLedger fun g => g.lookup id) s1
  let want := wish || (s.arb.reqState n).cls == 0
  s2.mapArb fun a =>
    let a1 := a.issue n (.laneRead n) r.beats u
    if want && decide (s.arb.urgentBeats ≤ used) then { a1 with evt := setBit a1.evt 3 } else a1

/-- A Ledger instruction that reads: it starts its read, or ends the job. -/
def State.laneGet (s : State) (n : Nat) (wish : Bool) (what : Lane → LaneRes LaneRead) : State :=
  let l := s.lane n
  if !l.issues then s
  else if inRom l.pc then s.laneStop n (.fault fPriv)
  else if !fetchable l.pc then s.laneStop n (.fault fIllegal)
  else match what l with
    | .ok r => s.issueRead n wish r
    | .error e => s.laneStop n e

/-- LGET: one entry in the class of the lane's CLASS record. -/
def execLget (lane : Nat) (f : IFields) (s : State) : Host.Outcome State Fault Refusal :=
  .next (s.laneGet lane false (lgetOf f))

/-- LGETU: one entry in the urgent class while the budget lasts. -/
def execLgetu (lane : Nat) (f : IFields) (s : State) : Host.Outcome State Fault Refusal :=
  .next (s.laneGet lane true (lgetOf f))

/-- LGETB: c entries to data RAM. -/
def execLgetb (lane : Nat) (f : IFields) (s : State) : Host.Outcome State Fault Refusal :=
  .next (s.laneGet lane false (lgetbOf f))

/-- LGETBU: as LGETB in the urgent class while the budget lasts. -/
def execLgetbu (lane : Nat) (f : IFields) (s : State) : Host.Outcome State Fault Refusal :=
  .next (s.laneGet lane true (lgetbOf f))

/-- LEDGER_READ_COMPLETE: the data of a lane's read is in its registers or data RAM, and the lane goes on (R140). -/
def execLedgerReadComplete (lane : Nat) (s : State) : Host.Outcome State Fault Refusal :=
  match (s.lane lane).stall, (s.lane lane).got with
  | some r, some es =>
    match (s.lane lane).deliver r es with
    | .ok l' => .next (s.mapLane lane fun _ => { l' with stall := none, got := none })
    | .error e => .next (s.laneStop lane e)
  | _, _ => .next s

/-- LPUT: the write joins the lane's post queue and its requests; while the queue holds 8 writes the lane waits (R141).
Log 17 (DEDUCED). -/
def execLput (lane : Nat) (f : IFields) (s : State) : Host.Outcome State Fault Refusal :=
  let l := s.lane lane
  if !l.issues then .next s
  else if inRom l.pc then .next (s.laneStop lane (.fault fPriv))
  else if !fetchable l.pc then .next (s.laneStop lane (.fault fIllegal))
  else match lputOf f l with
    | .error e => .next (s.laneStop lane e)
    | .ok p =>
      if 8 ≤ l.post.length then .next s
      else .next ((s.mapLane lane fun m => ({ m with post := m.post ++ [p] }).next).mapArb fun a =>
        a.issue lane (.lanePost lane) 1 false)

/-! ## Format C -/

/-- BRA. -/
def execBra (lane : Nat) (f : CFields) (s : State) : Host.Outcome State Fault Refusal :=
  .next (s.issue lane (laneBra f))

/-- CALL. -/
def execCall (lane : Nat) (f : CFields) (s : State) : Host.Outcome State Fault Refusal :=
  .next (s.issue lane (laneCall f))

/-- CALLB. -/
def execCallb (lane : Nat) (f : CFields) (s : State) : Host.Outcome State Fault Refusal :=
  .next (s.issue lane (laneCallb (s.blockTable lane) f))

/-- RET. -/
def execRet (lane : Nat) (f : CFields) (s : State) : Host.Outcome State Fault Refusal :=
  .next (s.issue lane (laneRet f))

/-- REP. -/
def execRep (lane : Nat) (f : CFields) (s : State) : Host.Outcome State Fault Refusal :=
  .next (s.issue lane (laneRep f))

end Sys2Proof.Machine
end

