-- ==== Sys2Proof/Machine/CodeRun.lean ====
section
/-!
DEFINITION. Lane code run by the chain runner (05_lane_datapath, R108, R133, R137, R147, R148): instruction words decoded
by the table *Main instructions* and carried out on a lane, and the call of a block from its entry to its return. A Ledger
read of such code is complete before the next instruction, and the writes that its lane posted before it take effect first
(R289).
-/
namespace Sys2Proof.Machine
open Sys2Proof

/-! ## Instruction words (R133) -/

/-- Format P fields of a word. -/
def pFieldsOf (w : Word64) : PFields :=
  { acc := field w 55 54, xs := field w 53 51, ys := field w 50 47, sh := field w 46 41, sat := bit w 40,
    mx := w.extractLsb' 20 20, my := w.extractLsb' 0 20 }

/-- Format I fields of a word. -/
def iFieldsOf (w : Word64) : IFields :=
  { dst := field w 55 49, src := field w 48 42, rr := bit w 41, rsvd := w.extractLsb' 32 9, imm := w.extractLsb' 0 32 }

/-- Format C fields of a word. -/
def cFieldsOf (w : Word64) : CFields :=
  { reg := field w 55 49, cond := field w 48 45, imm16 := field w 44 29, rsvd := w.extractLsb' 15 14,
    target := field w 14 0 }

/-- What a word does, by its OP: a change of the lane with the free values it draws, a Ledger read, a Ledger write, or
none of these. -/
inductive CodeOp where
  | lane (draw : Nat) (r : LaneRes Lane)
  | get (wish : Bool) (r : LaneRes LaneRead)
  | put (r : LaneRes Post)

/-- A format P word. -/
def pOp (placed : List (Nat × Nat)) (c : Nat) (f : PFields) (l : Lane) (op : Nat) : CodeOp :=
  match op with
  | 0x00 => .lane 0 (laneNop placed f l)
  | 0x01 => .lane 0 (laneMpy4 placed f l)
  | 0x02 => .lane 0 (laneMac4 placed f l)
  | 0x03 => .lane 0 (laneMsu4 placed f l)
  | 0x04 => .lane 0 (laneMpy placed f l)
  | 0x05 => .lane 0 (laneMac placed f l)
  | 0x06 => .lane 0 (laneMsu placed f l)
  | 0x07 => .lane 0 (laneAdl placed f l)
  | 0x08 => .lane 0 (laneAdda placed f l)
  | 0x09 => .lane 0 (laneSuba placed f l)
  | 0x0A => .lane 0 (laneNega placed f l)
  | 0x0B => .lane 0 (laneClra placed f l)
  | 0x0C => .lane 0 (laneSha placed f l)
  | 0x0D => .lane 0 (laneLda placed f l)
  | 0x0E =>
    .lane (if shaeOpen f l then 2 else 0) (laneShae placed (Config.freeValue c) (Config.freeValue (c + 1)) f l)
  | 0x10 => .lane 0 (laneRnd placed f l)
  | 0x11 => .lane 0 (laneRnde placed f l)
  | 0x12 => .lane 0 (laneNrnd placed f l)
  | 0x13 => .lane 0 (laneExpa placed f l)
  | 0x14 => .lane 0 (laneRsc placed f l)
  | 0x15 => .lane 0 (laneBxclr placed f l)
  | 0x16 => .lane 0 (laneShlb placed f l)
  | _ => .lane 0 illegal

/-- A format I word. -/
def iOp (placed : List (Nat × Nat)) (c : Nat) (f : IFields) (l : Lane) (op : Nat) : CodeOp :=
  match op with
  | 0x00 => .lane 0 (laneLi f l)
  | 0x01 => .lane (if movOpen f then 1 else 0) (laneMov (Config.freeValue c) f l)
  | 0x02 => .lane 0 (laneAddn f l)
  | 0x03 => .lane 0 (laneSubn f l)
  | 0x04 => .lane 0 (laneAndn f l)
  | 0x05 => .lane 0 (laneOrn f l)
  | 0x06 => .lane 0 (laneXorn f l)
  | 0x07 => .lane 0 (laneShln f l)
  | 0x08 => .lane 0 (laneSarn f l)
  | 0x09 => .lane 0 (laneAdde f l)
  | 0x0A => .lane 0 (laneImul f l)
  | 0x0B => .lane (if idivOpen f l then 1 else 0) (laneIdiv (Config.freeValue c) f l)
  | 0x0C => .lane 0 (laneMine f l)
  | 0x10 => .lane 0 (lanePld placed f l)
  | 0x11 => .lane 0 (lanePst f l)
  | 0x12 => .lane 0 (lanePadd f l)
  | 0x13 => .lane 0 (lanePsub f l)
  | 0x14 => .lane 0 (lanePext f l)
  | 0x15 => .lane 0 (lanePacc f l)
  | 0x16 => .lane 0 (lanePbf f l)
  | 0x18 => .get false (lgetOf f l)
  | 0x19 => .get true (lgetOf f l)
  | 0x1A => .put (lputOf f l)
  | 0x1B => .get false (lgetbOf f l)
  | 0x1C => .get true (lgetbOf f l)
  | _ => .lane 0 illegal

/-- A format C word; TAKE and DONE stand in lane ROM only (R139). -/
def cOp (placed : List (Nat × Nat)) (f : CFields) (l : Lane) (op : Nat) : CodeOp :=
  match op with
  | 0x00 => .lane 0 (laneBra f l)
  | 0x01 => .lane 0 (laneCall f l)
  | 0x02 => .lane 0 (laneCallb placed f l)
  | 0x03 => .lane 0 (laneRet f l)
  | 0x04 => .lane 0 (laneRep f l)
  | 0x3E => .lane 0 (.error (.fault fPriv))
  | 0x3F => .lane 0 (.error (.fault fPriv))
  | _ => .lane 0 illegal

/-- What an instruction word does on a lane, with c free values drawn before it. -/
def codeOp (placed : List (Nat × Nat)) (c : Nat) (w : Word64) (l : Lane) : CodeOp :=
  match field w 63 62 with
  | 0 => pOp placed c (pFieldsOf w) l (field w 61 56)
  | 1 => iOp placed c (iFieldsOf w) l (field w 61 56)
  | 2 => cOp placed (cFieldsOf w) l (field w 61 56)
  | _ => .lane 0 illegal

/-! ## Ledger access by code that the runner runs -/

/-- The writes a lane has posted take effect in order, each a transfer of its own, and leave its queue and the fabric.
Log 23 (DESIGN CHOICE). -/
def State.flushPosts (s : State) (n : Nat) : State :=
  let ps := (s.lane n).post
  let s1 := forEach ps (fun p s => s.writeEntry n p.id (entry p.value p.status p.stamp)) s
  let s2 := s1.mapLane n fun l => { l with post := [] }
  let mine := fun (r : Req) => r.xfer == Xfer.lanePost n
  s2.mapArb fun a =>
    let a1 := match a.owner with
      | some o => if mine o.r then a.finish s.fclk o else a
      | none => a
    let a2 := (a1.reqs.filter mine).foldl (fun a _ => a.atOnce s.fclk n) a1
    { a2 with reqs := a2.reqs.filter fun r => !mine r }

/-- Entries read by the runner of a lane, after the writes that the lane posted before (R140, R289, R297). An error in their stored
bits shows where a read of the fabric has found it (R293). Log 116 (DESIGN CHOICE).
Log 23 (DESIGN CHOICE). -/
def State.runnerRead (s : State) (n : Nat) (wish : Bool) (ids : List Nat) (beats : Nat) : List Word64 × State :=
  let s0 := s.flushPosts n
  let want := wish || (s0.arb.reqState n).cls == 0
  let u := s0.readUrgent n wish
  let used := (s0.lane n).urgentUsed + beats
  let s1 := forEach ids (fun id t => t.mapLedger fun g => g.lookup id) s0
  let s2 := s1.mapLane n fun l => { l with urgentUsed := if u then used else l.urgentUsed }
  let s3 := s2.mapArb fun a =>
    let a1 := a.atOnce s0.fclk n
    if want && decide (a.urgentBeats ≤ used) then { a1 with evt := setBit a1.evt 3 } else a1
  ids.foldl (fun r id => let (e, t) := r.2.readEntry n id .clean; (r.1 ++ [e], t)) ([], s3)

/-! ## One instruction, and a whole block (R147, R148) -/

/-- One instruction of lane code on lane n at its own address. -/
def State.codeStep (s : State) (n : Nat) : State × Option LaneStop :=
  let l := s.lane n
  if inRom l.pc then (s, some (.fault fPriv))
  else if !fetchable l.pc then (s, some (.fault fIllegal))
  else
    match codeOp (s.blockTable n) s.freeCount (memRead s.code l.pc) l with
    | .lane k (.ok l') => ((s.mapLane n fun _ => l').drawn k, none)
    | .lane _ (.error e) => (s, some e)
    | .get _ (.error e) => (s, some e)
    | .get wish (.ok r) =>
      let (es, s1) := s.runnerRead n wish r.ids r.beats
      match (s1.lane n).deliver r es with
      | .ok l' => (s1.mapLane n fun _ => l', none)
      | .error e => (s1, some e)
    | .put (.error e) => (s, some e)
    | .put (.ok p) =>
      let s1 := if 8 ≤ l.post.length then s.flushPosts n else s
      let s2 := s1.mapLane n fun m => ({ m with post := m.post ++ [p] }).next
      (s2.mapArb fun a => a.issue n (.lanePost n) 1 false, none)

/-- How a run of lane code ends: at its return, at a stop, or not within the cycles of its period. -/
inductive CodeEnd where
  | returned
  | stopped (e : LaneStop)
  | running

/-- Lane code run for at most a number of instructions. Log 21 (DESIGN CHOICE). -/
def State.runCode (n : Nat) : Nat → State → State × CodeEnd
  | 0, s => (s, .running)
  | k + 1, s =>
    if inRom (s.lane n).pc && (s.lane n).ret.isEmpty then (s, .returned)
    else match s.codeStep n with
      | (s1, some e) => (s1, .stopped e)
      | (s1, none) => State.runCode n k s1

/-- Instructions that fit the longest period of an axis: one CCLK cycle each for 125 µs. Log 21 (DESIGN CHOICE). -/
def codeFuel : Nat := 125000

/-- Registers whose values at block entry R147 leaves open, taken from 105 free values drawn from a count.
Log 20 (DESIGN CHOICE). -/
def Lane.openRegs (l : Lane) (c : Nat) : Lane :=
  let v := fun i => Config.freeValue (c + i)
  let ws := fun i k => (List.range k).map fun j => (v (i + j)).setWidth 32
  let is := fun i => (List.range 8).map fun j => (v (i + j)).setWidth 17
  { l with
    x := ws 0 8, y := ws 8 16, n := ws 24 16, e := ws 40 8
    p := (List.range 8).map fun j => (v (48 + 2 * j)).setWidth 32 ++ v (49 + 2 * j)
    ix := is 64, ox := is 72, iy := is 80, oy := is 88
    a := (List.range 4).map fun j => (v (96 + 2 * j)).setWidth 16 ++ v (97 + 2 * j)
    bxd := (v 104).toNat % 32 }

/-- The values of the table *Registers at block entry*. -/
structure EntryRegs where
  ix0 : Nat
  ix1 : Nat
  iy0 : Nat
  iy1 : Nat
  n0 : Word
  n1 : Word
  n2 : Word
  n3 : Word
  deriving DecidableEq, Repr

/-- A block entered on a lane: its registers, its address, and the return address in lane ROM on the return stack (R138,
R147). Log 20 (DESIGN CHOICE). Log 88 (DEDUCED). -/
def State.enterBlock (s : State) (n addr : Nat) (r : EntryRegs) : State :=
  (s.mapLane n fun l =>
    let l1 := l.openRegs s.freeCount
    { l1 with
      ix := putAt (putAt l1.ix 0 (BitVec.ofNat 17 r.ix0)) 1 (BitVec.ofNat 17 r.ix1)
      iy := putAt (putAt l1.iy 0 (BitVec.ofNat 17 r.iy0)) 1 (BitVec.ofNat 17 r.iy1)
      n := putAt (putAt (putAt (putAt l1.n 0 r.n0) 1 r.n1) 2 r.n2) 3 r.n3
      pc := addr, rep := [], ret := [{ addr := runnerEntry, depth := 0 }] }).drawn 105

end Sys2Proof.Machine
end

