-- ==== Sys2Proof/Machine/Profile.lean ====
section
/-!
DEFINITION. The profile generator (08_profiles_and_steps, R209 to R220): the brake profile, the plan in force as a list
of stretches of constant jerk, and the advance of one job. Inside, quantities are integers in units of 2^−64 of counts,
seconds and their ratios; the command state is kept in 2^−32.
-/
namespace Sys2Proof.Machine
open Sys2Proof

/-- Product of two numbers in units of 2^−64. -/
def mulF (a b : Int) : Int := a * b / 2 ^ 64
/-- Quotient of two numbers in units of 2^−64. -/
def divF (a b : Int) : Int := if b = 0 then 0 else a * 2 ^ 64 / b
/-- Root of a number in units of 2^−64; 0 of a negative one. -/
def sqrtF (a : Int) : Int := isqrt (a.toNat * 2 ^ 64)

/-- Position, velocity and acceleration in units of 2^−64. -/
structure Kin where
  p : Int
  v : Int
  a : Int
  deriving DecidableEq, Repr

/-- The state after a time under a jerk. -/
def Kin.run (k : Kin) (j t : Int) : Kin :=
  let jt := mulF j t
  let t2 := mulF t t
  { p := k.p + mulF k.v t + mulF k.a t2 / 2 + mulF (mulF j t2) t / 6, v := k.v + mulF k.a t + mulF jt t / 2,
    a := k.a + jt }

/-- The state at the start of a stretch. -/
def Kin.step (k : Kin) (s : Seg) : Kin := match s.step with
  | some a => { k with a := a }
  | none => k

/-- The state after a time along stretches; past the last the velocity holds. -/
def Kin.follow (k : Kin) (t : Int) : List Seg → Kin
  | [] => { (k.run 0 t) with a := k.a }
  | s :: r =>
    let k1 := k.step s
    if t ≤ s.dur then k1.run s.jerk t else (k1.run s.jerk s.dur).follow (t - s.dur) r

/-- The state at the end of stretches. -/
def Kin.finish (k : Kin) (l : List Seg) : Kin := l.foldl (fun k s => (k.step s).run s.jerk s.dur) k

/-- The length of stretches. -/
def segTime (l : List Seg) : Nat := l.foldl (fun n s => n + s.dur) 0

/-- A stretch of jerk. -/
def seg (j t : Int) : Seg := { step := none, jerk := j, dur := t.toNat }
/-- A stretch of constant acceleration reached by a step. -/
def segStep (a t : Int) : Seg := { step := some a, jerk := 0, dur := t.toNat }

/-- The stretches of the mirrored motion. -/
def mirror (s : Int) (l : List Seg) : List Seg :=
  if s < 0 then l.map fun g => { step := g.step.map fun a => -a, jerk := -g.jerk, dur := g.dur } else l

/-- Velocity lowered by dv to an end with a = 0 under D and J, from the acceleration a: −J until a = −d, −d held, +J
(R213). J = 0 steps the acceleration. One below −d from the start is ramped to −d. Log 113 (DESIGN CHOICE). -/
def lower (dv a D J : Int) : List Seg :=
  if D ≤ 0 then [segStep 0 0]
  else if J = 0 then [segStep (-D) (divF dv D), segStep 0 0]
  else
    let q := divF (mulF a a) J / 2
    if a < -D then
      [seg J (divF (-D - a) J), segStep (-D) (divF (dv - q) D), seg J (divF D J), segStep 0 0]
    else
      let d := sqrtF (mulF J dv + mulF a a / 2)
      if d ≤ D then [seg (-J) (divF (a + d) J), seg J (divF d J), segStep 0 0]
      else
        [seg (-J) (divF (a + D) J), segStep (-D) (divF (dv + q - divF (mulF D D) J) D), seg J (divF D J), segStep 0 0]

/-- Velocity raised by dv to an end with a = 0 under A and J, from the acceleration a. Above A, where a zero crossing under the
exception of R212 leaves it, it is ramped down to A (R211). -/
def raiseV (dv a A J : Int) : List Seg :=
  if A ≤ 0 then [segStep 0 0]
  else if J = 0 then [segStep A (divF dv A), segStep 0 0]
  else
    let q := divF (mulF a a) J / 2
    let d := sqrtF (mulF J dv + mulF a a / 2)
    if A < a then [seg (-J) (divF (a - A) J), segStep A (divF (dv - q) A), seg (-J) (divF A J), segStep 0 0]
    else if d ≤ A then [seg J (divF (d - a) J), seg (-J) (divF d J), segStep 0 0]
    else
      [seg J (divF (A - a) J), segStep A (divF (dv + q - divF (mulF A A) J) A), seg (-J) (divF A J), segStep 0 0]

/-- The velocity that is left when the acceleration is brought to 0 at once. -/
def settledV (v a J : Int) : Int := if J = 0 then v else v + divF (a * (a.natAbs : Int) / 2 ^ 64) J / 2

/-- The stretches that bring the velocity to vt ≥ 0 with a = 0, for a state with v ≥ 0. -/
def speedTo (v a vt A D J : Int) : List Seg :=
  if settledV v a J < vt then raiseV (vt - v) a A J else lower (v - vt) a D J

/-- The brake profile of a state with v ≥ 0 (R213). -/
def brake (k : Kin) (D J : Int) : List Seg := lower k.v k.a D J

/-- From a state with v ≥ 0 the velocity cannot reach 0 together with the acceleration (R212). -/
def stuck (k : Kin) (J : Int) : Bool := J != 0 && decide (k.a < 0) && decide (settledV k.v k.a J < 0)

/-- The time in which the velocity reaches 0 under +J from such a state. -/
def zeroTime (k : Kin) (J : Int) : Int := divF (-k.a - sqrtF (mulF k.a k.a - 2 * mulF J k.v)) J

/-- The first n bits of a search for the greatest time at which `ok` holds, from a time t on. -/
def searchTime (ok : Nat → Bool) : Nat → Nat → Nat
  | 0, t => t
  | n + 1, t => searchTime ok n (if ok (t + 2 ^ n) then t + 2 ^ n else t)

/-- Stretches cut at a time. -/
def cutAt (t : Nat) : List Seg → List Seg
  | [] => []
  | s :: r => if t ≤ s.dur then [{ s with dur := t }] else s :: cutAt (t - s.dur) r

/-- The shortest motion that reaches x without passing it, from a state with v ≥ 0 whose stop point lies at or before x:
it goes on towards VMAX as long as the brake profile still ends at or before x, and cruises where VMAX is reached first
(R212, R213). -/
def reach (k : Kin) (x V A D J : Int) : List Seg :=
  let push := speedTo k.v k.a V A D J
  let stopOf := fun (t : Nat) => let m := k.follow t push; (m.finish (brake m D J)).p
  let total := segTime push
  let e := k.finish push
  let far := (e.finish (brake e D J)).p
  if far ≤ x then
    push ++ (if 0 < V then [segStep 0 (divF (x - far) V)] else []) ++ brake e D J
  else
    let t := searchTime (fun t => t ≤ total && decide (stopOf t ≤ x)) (bitLen total) 0
    let m := k.follow t push
    cutAt t push ++ brake m D J

/-- A position in units of 2^−32, rounded by crnd. -/
def toQ (v : Int) : Int := crndShift v (-32)

/-- The direction of travel: the sign of v, or of a, or of what lies ahead (R214). -/
def travel (k : Kin) (ahead : Int) : Int :=
  if k.v ≠ 0 then k.v.sign else if k.a ≠ 0 then k.a.sign else ahead.sign

/-- The state seen in the direction of travel. -/
def Kin.norm (k : Kin) (s : Int) : Kin := { p := s * k.p, v := s * k.v, a := s * k.a }

/-- The stop point ps of a state under D and J, in units of 2^−64 (R213, R214). -/
def stopPoint (k : Kin) (D J : Int) : Int :=
  let s := travel k 1
  let n := k.norm s
  if stuck n J then s * (n.run J (zeroTime n J)).p else s * (n.finish (brake n D J)).p

/-- The stretches of a plan to x with PROF_REVERSE and OVERSHOOT_PLANNED (R212, R214). -/
def planTo : Nat → Kin → Int → Int → Int → Int → Int → List Seg × Bool × Bool
  | 0, _, _, _, _, _, _ => ([], false, false)
  | n + 1, k, x, V, A, D, J =>
    let s := travel k (x - k.p)
    if s = 0 then ([], false, false)
    else
      let m := k.norm s
      let y := s * x
      if stuck m J then
        let tz := zeroTime m J
        let z := m.run J tz
        let (rest, _, _) := planTo n (({ z with v := 0 }).norm s) x V A D J
        let ps := toQ z.p
        let rev := decide (toQ y < ps)
        (mirror s [seg J tz] ++ rest, rev, rev && decide (toQ m.p < toQ y))
      else
        let b := brake m D J
        let stop := (m.finish b).p
        if toQ stop ≤ toQ y then (mirror s (reach m y V A D J), false, false)
        else
          let (rest, _, _) := planTo n { p := s * stop, v := 0, a := 0 } x V A D J
          (mirror s b ++ rest, true, decide (toQ m.p < toQ y))

/-- The stretches that drive the velocity to a jog velocity (R217). -/
def planJog : Nat → Kin → Int → Int → Int → Int → List Seg
  | 0, _, _, _, _, _ => []
  | n + 1, k, vj, A, D, J =>
    let s := travel k vj
    if s = 0 then []
    else
      let m := k.norm s
      if stuck m J then
        let tz := zeroTime m J
        let z := m.run J tz
        mirror s [seg J tz] ++ planJog n (({ z with v := 0 }).norm s) vj A D J
      else if 0 ≤ s * vj then mirror s (speedTo m.v m.a (s * vj) A D J)
      else
        let b := brake m D J
        mirror s b ++ planJog n { p := s * (m.finish b).p, v := 0, a := 0 } vj A D J

/-- The quick-stop profile of a state (R219). -/
def planStop : Nat → Kin → Int → Int → List Seg
  | 0, _, _, _ => []
  | n + 1, k, D, J =>
    let s := travel k 0
    if s = 0 then []
    else
      let m := k.norm s
      if stuck m J then
        let tz := zeroTime m J
        let z := m.run J tz
        mirror s [seg J tz] ++ planStop n (({ z with v := 0 }).norm s) D J
      else mirror s (brake m D J)

/-! ## The settings and the job (R209, R210, R213, R215, R216, R218) -/

/-- The profile words of the command area. -/
structure ProfWords where
  target : Int
  vmax : Nat
  amax : Nat
  dmax : Nat
  jmax : Nat
  qdec : Nat
  qjerk : Nat
  velMode : Bool
  jog : Int
  deriving DecidableEq, Repr

/-- What the generator leaves: the command state in 2^−32, the plan in force, and the status of the job. -/
structure ProfOut where
  p : Int
  v : Int
  a : Int
  plan : Option Plan
  done : Bool
  reverse : Bool
  overshoot : Bool
  invalid : Bool
  cut : Bool
  /-- At rest at the end of a quick stop. -/
  rest : Bool
  leftUs : Nat
  deriving DecidableEq, Repr

/-- A setting in units of 2^−64: VMAX of 1, AMAX, DMAX and QDEC of 256, JMAX and QJERK of 65,536. -/
def fx (n unit : Nat) : Int := (n : Int) * (unit : Int) * 2 ^ 64

/-- A command state in units of 2^−64. -/
def kinOf (p v a : Int) : Kin := { p := p * 2 ^ 32, v := v * 2 ^ 32, a := a * 2 ^ 32 }

/-- A time in ns in units of 2^−64 s. -/
def timeF (ns : Nat) : Int := ((ns * 2 ^ 64 / 1000000000 : Nat) : Int)

/-- The acceleration held to the limit for its sense (R211, R213), and whether it was cut, in any job that forms a plan.
Log 112 (DESIGN CHOICE). -/
def accCut (v a : Int) (amax dmax : Nat) : Int × Bool :=
  let up := v = 0 ∨ v.sign = a.sign
  let lim : Int := (if up then amax else dmax) * 256 * 2 ^ 32
  if lim < a.natAbs then (a.sign * lim, true) else (a, false)

/-- VMAX, AMAX or DMAX is 0 (R218). -/
def ProfWords.unlimited (w : ProfWords) : Bool := w.vmax == 0 || w.amax == 0 || w.dmax == 0

/-- Quick-stop settings: QDEC, or DMAX where it is 0, and QJERK (R219). -/
def ProfWords.quick (w : ProfWords) : Nat × Nat := (if w.qdec = 0 then w.dmax else w.qdec, w.qjerk)

/-- A plan of a kind formed from a command state. Log 37 (DEDUCED). Log 112 (DESIGN CHOICE). -/
def formPlan (kind : PlanKind) (w : ProfWords) (p v a : Int) : Plan :=
  let k := kinOf p v a
  let (D, J) := w.quick
  let base : Plan :=
    { kind := kind, x := w.target, vmax := w.vmax, amax := w.amax, dmax := w.dmax, jmax := w.jmax, jog := w.jog,
      reverse := false, overshoot := false, p0 := p, v0 := v, a0 := a, segs := [], elapsed := 0 }
  match kind with
  | .target =>
    let (l, r, o) := planTo 4 k (w.target * 2 ^ 32) (fx w.vmax 1) (fx w.amax 256) (fx w.dmax 256) (fx w.jmax 65536)
    { base with segs := l, reverse := r, overshoot := o }
  | .jog =>
    let vj := clamp (-(w.vmax : Int)) w.vmax w.jog
    { base with segs := planJog 4 k (vj * 2 ^ 64) (fx w.amax 256) (fx w.dmax 256) (fx w.jmax 65536) }
  | _ => { base with dmax := D, jmax := J, segs := planStop 4 k (fx D 256) (fx J 65536) }

/-- Whether the plan in force stands under the kind and settings of this job. -/
def Plan.same (q : Plan) (kind : PlanKind) (w : ProfWords) : Bool :=
  q.kind == kind && match kind with
  | .target => q.x == w.target && q.vmax == w.vmax && q.amax == w.amax && q.dmax == w.dmax && q.jmax == w.jmax
  | .jog => q.jog == w.jog && q.vmax == w.vmax && q.amax == w.amax && q.dmax == w.dmax && q.jmax == w.jmax
  | _ => (q.dmax, q.jmax) == w.quick

/-- Nearness, in units of 2^−64 s, at which an advance counts as reaching the end of a plan: 2^−16 ns. Log 37 (DEDUCED). -/
def endSlack : Nat := 2 ^ 18

/-- One job along a plan: the state after ta more nanoseconds, and the time left, in 2^−64 s. -/
def Plan.advance (q : Plan) (ta : Nat) : Plan × Kin × Nat :=
  let e := q.elapsed + ta
  let t := timeF e
  ({ q with elapsed := e }, (kinOf q.p0 q.v0 q.a0).follow t q.segs, segTime q.segs - t.toNat)

/-- Microseconds of a time in 2^−64 s: its publication holds it to 32 bits and marks that (R231). -/
def leftUs (t : Nat) : Nat := (crndDiv ((t : Int) * 1000000) (2 ^ 64)).toNat

/-- What the generator keeps over its jobs for PROF_REVERSE and OVERSHOOT_PLANNED: x of the last plan to a target, and the
two bits (R215). -/
structure ProfKept where
  x : Int
  rev : Bool
  beyond : Bool
  deriving DecidableEq, Repr

/-- A target taken by a job that forms no plan to it: the bits stay where it is the one in force, and with another x they are of
no plan (R215, R216). Log 107 (DEDUCED). -/
def ProfKept.goal (h : ProfKept) (x : Int) : ProfKept :=
  if h.x = x then h else { x := x, rev := false, beyond := false }

/-- The bits after a job that forms no plan to a target: they stay, and end with a move that has ended (R215). -/
def ProfKept.rest (h : ProfKept) (done : Bool) : ProfKept := { h with rev := h.rev && !done, beyond := h.beyond && !done }

/-- The bits after a job that forms a plan to x: with x unchanged what was set stays set (R215). -/
def ProfKept.formed (h : ProfKept) (q : Plan) : ProfKept :=
  { x := q.x, rev := q.reverse || (h.x == q.x && h.rev), beyond := q.overshoot || (h.x == q.x && h.beyond) }

/-- The command at rest at once where no deceleration is given (R218). -/
def haltNow (p : Int) (plan : Option Plan) (invalid : Bool) : ProfOut :=
  { p := p, v := 0, a := 0, plan := plan, done := false, reverse := false, overshoot := false, invalid := invalid,
    cut := false, rest := true, leftUs := 0 }

/-- A job of the quick-stop profile, from a controlled stop or under LIMITS_INVALID (R218, R219). A limit written during
a controlled stop does not reach it (R220). -/
def quickJob (kind : PlanKind) (w : ProfWords) (plan : Option Plan) (p v a : Int) (ta : Nat) (invalid : Bool) :
    ProfOut :=
  let kept := plan.filter fun q => q.kind == kind && (kind == .quick || q.same kind w)
  if kept.isNone && w.quick.1 = 0 then haltNow p none invalid
  else
    let q := kept.getD (formPlan kind w p v a)
    let (q', k, left) := q.advance ta
    if left ≤ endSlack then
      let stop := (kinOf q.p0 q.v0 q.a0).finish q.segs
      haltNow (toQ stop.p) (some q') invalid
    else
      { p := toQ k.p, v := toQ k.v, a := toQ k.a, plan := some q', done := false, reverse := false,
        overshoot := false, invalid := invalid, cut := false, rest := false, leftUs := leftUs left }

/-- PROF_DONE, PROF_REVERSE and OVERSHOOT_PLANNED of a job that left the command where it is: the first is set while the
state is (x, 0, 0), and ends the move (R215, R216, R230). -/
def ProfOut.status (o : ProfOut) (x : Int) (h : ProfKept) : ProfOut × ProfKept :=
  let done := o.p == x && o.v == 0 && o.a == 0
  let h1 := h.rest done
  ({ o with done := done, reverse := h1.rev, overshoot := h1.beyond }, h1)

/-- A job of the profile generator as source 0 (R215 to R218). `entered` says that the source is entered in this job, which
plans as any other (R220). While VEL_MODE is 1, x is the target in force before, since TARGET is held (R210); a TARGET that a job
under LIMITS_INVALID takes is x from then on, by which PROF_DONE is judged. Log 107 (DEDUCED). -/
def profileJob (w : ProfWords) (plan : Option Plan) (h : ProfKept) (entered : Bool) (p v a : Int) (ta : Nat) :
    ProfOut × ProfKept :=
  let x := if w.velMode then h.x else w.target
  if w.unlimited then
    (quickJob .limits w (if entered then none else plan) p v a ta true).status x (h.goal x)
  else if !w.velMode && p == w.target && v == 0 && a == 0 then
    ({ p := p, v := 0, a := 0, plan := none, done := true, reverse := false, overshoot := false, invalid := false,
       cut := false, rest := true, leftUs := 0 }, { x := w.target, rev := false, beyond := false })
  else
    let kind : PlanKind := if w.velMode then .jog else .target
    let keep := match plan with
      | some q => !entered && q.same kind w
      | none => false
    let (a1, cut) := if keep then (a, false) else accCut v a w.amax w.dmax
    let q := if keep then plan.getD (formPlan kind w p v a1) else formPlan kind w p v a1
    let (q', k, left) := q.advance ta
    match kind with
    | .jog =>
      let vj := clamp (-(w.vmax : Int)) w.vmax w.jog
      let held := decide (left ≤ endSlack)
      ({ p := toQ k.p, v := if held then vj * 2 ^ 32 else toQ k.v, a := if held then 0 else toQ k.a,
         plan := some q', done := false, reverse := false, overshoot := false, invalid := false, cut := cut,
         rest := false, leftUs := if held then 0 else leftUs left } : ProfOut).status x h
    | _ =>
      if left ≤ endSlack then
        ({ p := w.target, v := 0, a := 0, plan := none, done := true, reverse := false, overshoot := false,
           invalid := false, cut := cut, rest := true, leftUs := 0 }, { x := w.target, rev := false, beyond := false })
      else
        let h1 := if keep then h else h.formed q
        ({ p := toQ k.p, v := toQ k.v, a := toQ k.a, plan := some q', done := false, reverse := h1.rev,
           overshoot := h1.beyond, invalid := false, cut := cut, rest := false, leftUs := leftUs left }, h1)

end Sys2Proof.Machine
end

