-- ==== Sys2Proof/Machine/Runner.lean ====
section
/-!
DEFINITION. The chain runner's own work before the blocks: feedback extension and speed (09_feedback, R241 to R246),
set-point sources (06_axis_loops, R164 to R170; 08_profiles_and_steps), the issued position of Mode S (R221 to R228), and
following error and reactions (07_filters_supervision, R195 to R200).
-/
namespace Sys2Proof.Machine
open Sys2Proof

/-! ## The job and its page image -/

/-- What a job of an axis works with: its lane, its records, its sample instant, its period and base period in ns, its
stamp, and whether reduced service runs. -/
structure JobCtx where
  lane : Nat
  c : Charter
  r : AxisRec
  tk : Nat
  ta : Nat
  period : Nat
  stamp : Nat
  reduced : Bool
  deriving DecidableEq, Repr

/-- The word of the page image at a page offset. -/
def Lane.image (l : Lane) (off : Nat) : Word := memRead l.ram ((0x1000 + off) / 4)

/-- Consecutive words of the page image. -/
def Lane.imageWords (l : Lane) (off n : Nat) : List Word := memReadList l.ram ((0x1000 + off) / 4) n

/-- Words put over the image input area, which no commit takes (R156). -/
def Lane.overlay (l : Lane) (off : Nat) (ws : List Word) : Lane :=
  { l with ram := memWriteList l.ram ((0x1000 + off) / 4) ws }

/-- Command word i of the image. -/
def Lane.cmd (l : Lane) (i : Nat) : Word := l.image (0x180 + 4 * i)

/-- A rate per ns as a rate per s. -/
def perSec (v : Int) (ns : Nat) : Int := crndDiv (v * 1000000000) ns

/-- The product of a rate per s and a time in ns. -/
def timesNs (v : Int) (ns : Nat) : Int := crndDiv (v * (ns : Int)) 1000000000

/-- An integer count as a position. -/
def posOfInt (v : Int) : Pos := BitVec.ofInt 96 (v * 2 ^ 32)

/-! ## Counter extension and speed (R157, R241 to R246) -/

/-- What a job finds for one role: its settings, its record, and whether the record is used. -/
structure FbIn where
  cfg : Word
  recd : List Word
  invalid : Bool
  /-- INVALID is latched, so that counts are lost (R244). -/
  latched : Bool
  ta : Nat
  /-- Ratio of the load scaling; 1 and 1 for the primary role. -/
  num : Int
  den : Nat
  deriving DecidableEq, Repr

/-- What extension leaves: the state of the role, its position, the count difference, and whether counts were lost. -/
structure FbOut where
  run : FbRun
  pos : Pos
  dc : Int
  lost : Bool
  deriving DecidableEq, Repr

/-- SPD_TH; 0 is read as 4. -/
def spdTh (cfg : Word) : Nat := if field cfg 5 0 = 0 then 4 else field cfg 5 0
/-- INV_JOBS; 0 is read as 1. -/
def invJobs (cfg : Word) : Nat := if field cfg 15 8 = 0 then 1 else field cfg 15 8

/-- Word i of a record. -/
def FbIn.word (i : FbIn) (n : Nat) : Word := i.recd.getD n 0
/-- The record is of the kind SSI. -/
def FbIn.isSsi (i : FbIn) : Bool := field (i.word 1) 1 0 == 2
/-- The converted SSI reading. -/
def FbIn.reading (i : FbIn) : Nat := (i.word 4).toNat + field (i.word 5) 7 0 * 2 ^ 32

/-- The speed of a valid record (R245). Log 29 (DEDUCED). -/
def FbRun.speed (f : FbRun) (i : FbIn) (dc : Int) : FbRun :=
  let th := spdTh i.cfg
  let still := stillNs i.cfg
  let w1 := i.word 1
  let count :=
    if i.isSsi then true
    else if bit w1 3 then false
    else if f.count ∧ dc.natAbs < th then false
    else if !f.count ∧ th < dc.natAbs then true
    else f.count
  let quiet := if dc = 0 then f.still + i.ta else 0
  let f1 := { f with count := count, still := quiet }
  let age := (i.word 2).toNat
  let ivl := (i.word 3).toNat
  if (!i.isSsi && decide (still ≤ age)) || (i.isSsi && dc == 0 && decide (still ≤ quiet)) then
    { f1 with w := 0, standstill := true }
  else
    let w :=
      if count then perSec (dc * 2 ^ 32) i.ta
      else if ivl = 0 ∨ still ≤ ivl then 0
      else
        let v := perSec (2 ^ 32) ivl
        let v' := if 0 < age then min v (perSec (2 ^ 32) age) else v
        if bit w1 2 then -v' else v'
    { f1 with w := w, standstill := false }

/-- A change of the scaling ratio starts again without a remainder (R157). -/
def FbRun.ratio (f : FbRun) (num : Int) (den : Nat) : FbRun :=
  if f.num = num ∧ f.den = den then f else { f with num := num, den := den, rem := 0 }

/-- Counts scaled by LOAD_NUM / LOAD_DEN, in 2^−32 counts, with the remainder carried; a denominator of 0 is the ratio 1
(R157). -/
def FbRun.scale (f : FbRun) (dc : Int) : Int × FbRun :=
  let (n, d) := if f.den = 0 then ((1 : Int), (1 : Nat)) else (f.num, f.den)
  let acc := f.rem + dc * n * 2 ^ 32
  let q := acc / (d : Int)
  (q, { f with rem := acc - q * (d : Int) })

/-- A speed scaled likewise. -/
def FbRun.scaledW (f : FbRun) : Int := if f.den = 0 then f.w else crndDiv (f.w * f.num) f.den

/-- The position nearest to the present one that stands at a reading modulo 2^bits, through the scaling (R157, R243). -/
def FbRun.nearest (f : FbRun) (p : Pos) (reading bits : Nat) : Int × FbRun :=
  let (n, d) := if f.den = 0 then ((1 : Int), (1 : Nat)) else (f.num, f.den)
  let cur := if n = 0 then 0 else crndDiv (n.sign * p.toInt * (d : Int)) (n.natAbs * 2 ^ 32)
  ({ f with rem := 0 }).scale (cur + signed bits (lowBits bits ((reading : Int) - cur)))

/-- One record extended (R241 to R245): held while INVALID; a first record sets the position; the first after an enrolment
adds no difference. Log 29 (DEDUCED). -/
def FbRun.extend (f0 : FbRun) (pos : Pos) (bits : Nat) (i : FbIn) : FbOut :=
  let f := f0.ratio i.num i.den
  let c := i.word 0
  if i.invalid then
    { run := { f with cLast := c, invalid := min (f.invalid + 1) 255 }, pos := pos, dc := 0, lost := i.latched }
  else
    let g := { f with cLast := c, invalid := 0, first := false, rebind := false }
    if f.first then
      let g1 := { g with count := false, w := 0, still := 0 }
      let (q, g2) := if i.isSsi then g1.scale (i.reading : Int) else (0, g1)
      { run := g2.speed i 0, pos := BitVec.ofInt 96 q, dc := 0, lost := false }
    else if f.rebind then
      let g1 := { g with count := false, w := 0, still := 0 }
      if i.isSsi then
        let (q, g2) := g1.nearest pos i.reading bits
        { run := g2.speed i 0, pos := BitVec.ofInt 96 q, dc := 0, lost := false }
      else { run := g1.speed i 0, pos := pos, dc := 0, lost := true }
    else
      let dc := (c - f.cLast).toInt
      let (q, g1) := g.scale dc
      { run := g1.speed i dc, pos := pos + BitVec.ofInt 96 q, dc := dc, lost := false }

/-- SSI_BITS of a role: of the local port, or of the station channel. -/
def State.roleBits (s : State) (a : Nat) (w : Word) (load : Bool) : Nat :=
  if isLocal w then ssiBits (field (s.fb (field w 3 0)).cfg 17 12)
  else ssiBits (field (if load then (s.axis a).ssi1 else (s.axis a).ssi0) 5 0)

/-! ## Causes and reactions (R197 to R200) -/

/-- A cause whose reaction is torque off whatever REACTION says (R197, R244, R374). -/
def forcedOff (code : Nat) : Bool := code == 5 || code == 6 || code == 7

/-- The reaction of an AXIS record: 1 torque off, 2 controlled stop, 3 hold position. -/
def reactionOf (r : AxisRec) (reduced : Bool) : Nat := if reduced then 1 else r.reaction + 1

/-- Causes that arise together put into effect: with no reaction in force the lowest code is recorded, and torque off is
taken where any of them has it; in a stop or hold a following-error trip, an overrun limit, or a cause whose reaction is
torque off falls to torque off (R103, R197, R199). STOP_DONE stays until R200 clears it; the following-error timer is set to 0
also where torque off is entered. Log 106 (DESIGN CHOICE). -/
def AxisRun.enter (x : AxisRun) (react : Nat) (codes : List Nat) : AxisRun :=
  match codes with
  | [] => x
  | c :: cs =>
    let x1 := { x with feTrip := x.feTrip || codes.contains 1 }
    let off := react = 1 ∨ codes.any forcedOff = true
    if x.react = 0 then
      { x1 with react := if off then 1 else react, cause := cs.foldl min c, feTimer := 0, reactNew := true }
    else if x.react ≠ 1 ∧ (off ∨ codes.any (fun c => c == 1 || c == 2) = true) then
      { x1 with react := 1, feTimer := 0 }
    else x1

/-- Causes found for an output in which others have taken effect already: they stand together with those (R197). -/
def AxisRun.join (x : AxisRun) (react : Nat) (codes : List Nat) : AxisRun :=
  if x.reactNew && x.react ≠ 0 then
    let off := codes ≠ [] ∧ react = 1 ∨ codes.any forcedOff = true
    { x with
      feTrip := x.feTrip || codes.contains 1, cause := codes.foldl min x.cause, react := if off then 1 else x.react }
  else x.enter react codes

/-- No reaction in force (R200). -/
def AxisRun.clearReaction (x : AxisRun) : AxisRun :=
  { x with react := 0, cause := 0, feTrip := false, stopDone := false, feTimer := 0, reactNew := false }

/-- R200: with ENABLE 0 and no cause holding, the reaction, FE_TRIP, STOP_DONE and the timer clear; a station bound again
with REJOIN 1 clears a reaction of cause 4 where no other cause holds (R343). -/
def AxisRun.tryClear (x : AxisRun) (enable present : Bool) (holding : List Nat) : AxisRun :=
  let x1 := if !enable && holding.isEmpty then x.clearReaction else x
  if x1.rejoinClear && present then
    let x2 := { x1 with rejoinClear := false }
    if x2.react ≠ 0 ∧ x2.cause = 4 ∧ (holding.filter fun h => h != 4) = [] then x2.clearReaction else x2
  else x1

/-! ## Following error (R194 to R196) -/

/-- The supervised error in 2^−32 counts. Where FE_LOAD selects the load and the axis has no load feedback, R195's difference
against POS_LOAD is taken as it stands, which the zero e_load of R156 is not. Log 94 (DESIGN CHOICE). -/
def AxisRun.fe (x : AxisRun) (load : Bool) : Nat := (x.posCmd.toInt - (if load then x.posLoad else x.posFb).toInt).natAbs

/-- The timer of a job, and whether it trips (R195). -/
def AxisRun.feStep (x : AxisRun) (l : Lane) (en skip : Bool) : AxisRun × Bool :=
  let limit := (l.cmd 27).toNat
  let trip := if field (l.cmd 28) 15 0 = 0 then 1 else field (l.cmd 28) 15 0
  let t :=
    if limit = 0 ∨ !en then 0
    else if skip then x.feTimer
    else if limit * 2 ^ 24 < x.fe (bit (l.cmd 28) 16) then min (x.feTimer + 1) 65535
    else x.feTimer - 1
  ({ x with feTimer := t }, decide (trip ≤ t))

/-! ## Set-point sources (R164 to R170, R209 to R219) -/

/-- What a source leaves: the state after its Ledger reads, the runner state, AXIS_STAT bits, PROF_LEFT, and whether
MASTER_LOST has come about in this job. -/
structure SrcOut where
  s : State
  run : AxisRun
  bits : Nat
  left : Nat
  lost : Bool

/-- A source's result without reads. -/
def SrcOut.pure (s : State) (run : AxisRun) (bits : Nat := 0) (left : Nat := 0) : SrcOut :=
  { s := s, run := run, bits := bits, left := left, lost := false }

/-- The profile words of the image. -/
def Lane.profWords (l : Lane) : ProfWords :=
  { target := (posOfWords (l.cmd 0) (l.cmd 1) (l.cmd 2)).toInt, vmax := (l.cmd 4).toNat, amax := (l.cmd 5).toNat,
    dmax := (l.cmd 6).toNat, jmax := (l.cmd 7).toNat, qdec := (l.cmd 8).toNat, qjerk := (l.cmd 9).toNat,
    velMode := bit (l.cmd 10) 0, jog := (l.cmd 11).toInt }

/-- The command state moved on by a generator's result. -/
def AxisRun.take (x : AxisRun) (o : ProfOut) : AxisRun :=
  { x with posCmd := BitVec.ofInt 96 o.p, wRef := o.v, aRef := o.a, plan := o.plan }

/-- What a job in which the profile does not form the command leaves of its status: PROF_DONE while the state is still (x, 0, 0)
(R216), PROF_REVERSE and OVERSHOOT_PLANNED as they are (R215), and LIMITS_INVALID until a job finds no word zero (R218). -/
def AxisRun.profRest (x : AxisRun) (w : ProfWords) : AxisRun × Nat :=
  let done := x.profDone && x.posCmd.toInt == x.profX && x.wRef == 0 && x.aRef == 0
  ({ x with profDone := done },
   flagAt done 19 + flagAt x.profRev 20 + flagAt x.profOver 21 + flagAt (bit x.stat 22 && w.unlimited) 22)

/-- Source 0, the profile generator. PROF_DONE is bit 19 to ACC_CUT bit 23 (R230). -/
def srcProfile (j : JobCtx) (s : State) (x : AxisRun) (entered : Bool) : SrcOut :=
  let l := s.lane j.lane
  let (o, h) := profileJob l.profWords x.plan { x := x.profX, rev := x.profRev, beyond := x.profOver } entered
    x.posCmd.toInt x.wRef x.aRef j.ta
  SrcOut.pure s { x.take o with profDone := o.done, profX := h.x, profRev := h.rev, profOver := h.beyond }
    (flagAt o.done 19 + flagAt o.reverse 20 + flagAt o.overshoot 21 + flagAt o.invalid 22 + flagAt o.cut 23) o.leftUs

/-- The quick-stop profile of a controlled stop (R198, R219). -/
def srcQuick (j : JobCtx) (s : State) (x : AxisRun) (entered : Bool) : SrcOut :=
  let l := s.lane j.lane
  let o := quickJob .quick l.profWords (if entered then none else x.plan) x.posCmd.toInt x.wRef x.aRef j.ta false
  SrcOut.pure s { x.take o with stopDone := x.stopDone || o.rest }

/-- Hold: the command stands, at rest (R198, R408). -/
def srcHold (s : State) (x : AxisRun) : SrcOut := SrcOut.pure s { x with wRef := 0, aRef := 0, plan := none }

/-- Source 2, pulse following (R165, R170). GEAR_INVALID is bit 6. -/
def srcPulse (j : JobCtx) (s : State) (x : AxisRun) (entered : Bool) : SrcOut :=
  let l := s.lane j.lane
  let num := l.cmd 12
  let den := l.cmd 13
  let raw := l.image 0x60
  let last := if entered then raw else x.pulseLast
  let changed := num ≠ x.gearNumSeen ∨ den ≠ x.gearDenSeen
  let rem := if entered ∨ changed then 0 else x.pulseRem
  let (n, d) := if den = 0 then (x.gearNum, x.gearDen) else (num.toInt, den.toNat)
  let acc := rem + (raw - last).toInt * n * 2 ^ 32
  let q := if d = 0 then 0 else acc / (d : Int)
  let w := perSec q j.ta
  SrcOut.pure s
    { x with
      posCmd := x.posCmd + BitVec.ofInt 96 q, wRef := w, aRef := perSec (w - x.wRef) j.ta, plan := none,
      pulseLast := raw, pulseRem := acc - q * (d : Int), gearNum := n, gearDen := d, gearNumSeen := num,
      gearDenSeen := den }
    (flagAt (den == 0) 6)

/-- Source 3, analogue following (R166, R170). ANA_TAU beyond its range is held at its end. yf, and w_ref and a_ref of the
pulse, analogue and cam sources, are held from job to job in 2^−32 of their unit, rounded by crnd: R61 and R216 give that form
to the profile generator only. Log 94 (DESIGN CHOICE). -/
def srcAnalogue (j : JobCtx) (s : State) (x : AxisRun) (entered : Bool) : SrcOut :=
  let l := s.lane j.lane
  let x0 : Int := (field (l.image 0x64) 15 0 : Int) - (field (l.cmd 15) 31 16 : Int)
  let db : Int := field (l.cmd 17) 15 0
  let v := if x0.natAbs ≤ db then 0 else x0 - x0.sign * db
  let y := v * (l.cmd 16).toInt * 2 ^ 16
  let tau := min (l.cmd 18).toNat 10000000
  let old := if entered then x.wRef else x.yf
  let yf := if tau = 0 then y else old + crndDiv ((2 ^ 96 - expNeg j.ta (tau * 1000)) * (y - old)) (2 ^ 96)
  SrcOut.pure s
    { x with posCmd := x.posCmd + BitVec.ofInt 96 (timesNs yf j.ta), wRef := yf, aRef := perSec (yf - old) j.ta,
             yf := yf, plan := none }

/-! ### The cam (R167 to R169) -/

/-- The master's entry judged by its stamp: its value and whether it is advanced by a base period; none where it is stale
(R169). An identifier that is not valid under R6, or reserved, never carries the stamp. -/
def masterFresh (stamp : Nat) (e : Word64) : Option Bool :=
  if entryStamp e = stamp then some false
  else if entryStamp e = (stamp + 2 ^ 24 - 1) % 2 ^ 24 then some true
  else none

/-- The master entry read by LGETU (R168); nothing where CAM_MASTER is no signal. -/
def State.readMaster (s : State) (j : JobCtx) : Option Word64 × State :=
  let id := ((s.lane j.lane).cmd 19).toNat
  if 2 ^ 25 ≤ id then (none, s)
  else
    let (es, s1) := s.runnerRead j.lane true [id] 1
    (es.head?, s1)

/-- The master position of this job in 2^−32 counts, with wm and the count of stale jobs (R168, R169). wm is 0 in the
job of entry. Log 114 (DESIGN CHOICE). Log 89 (DEDUCED). -/
def AxisRun.camMaster (x : AxisRun) (j : JobCtx) (e : Option Word64) (entered : Bool) : AxisRun × Bool :=
  let raw := match e with
    | some e => entryValue e
    | none => x.camRaw
  let fresh := e.bind (masterFresh j.stamp)
  if entered then
    let ext := raw.toInt
    ({ x with camExt := ext, camRaw := raw, camM := ext * 2 ^ 32, camWm := 0, camReady := false,
              camStale := if fresh.isSome then 0 else 1, masterLost := false }, false)
  else match fresh with
    | none =>
      let n := x.camStale + 1
      ({ x with camM := x.camM + timesNs x.camWm j.ta, camStale := n, masterLost := x.masterLost || decide (4 ≤ n) },
       !x.masterLost && decide (4 ≤ n))
    | some adv =>
      let ext := x.camExt + (raw - x.camRaw).toInt
      let m := ext * 2 ^ 32 + (if adv then timesNs x.camWm j.period else 0)
      ({ x with camExt := ext, camRaw := raw, camM := m, camWm := perSec (m - x.camM) j.ta, camStale := 0,
                masterLost := false }, false)

/-- A cam table header. -/
structure CamHdr where
  n : Nat
  periodic : Bool
  period : Nat
  rise : Int
  deriving DecidableEq, Repr

/-- The header of a cam table where it keeps R167. -/
def camHdr (table : Nat) (es : List Word64) : Option CamHdr :=
  let w := fun i => entryValue (es.getD i 0)
  let h : CamHdr :=
    { n := field (w 0) 9 0, periodic := bit (w 0) 31, period := (w 1).toNat, rise := (w 2).toInt }
  if 8 ≤ idClass table ∧ idClass table ≤ 15 ∧ idItem table = 0 ∧ 4 ≤ h.n ∧ h.n ≤ 1021 ∧ h.n ≤ h.period
      ∧ (h.periodic = true ∨ h.rise = 0) then some h else none

/-- Intervals of a cam table. -/
def CamHdr.steps (h : CamHdr) : Nat := if h.periodic then h.n else h.n - 1

/-- r, j and f of a master position: f as a fraction of period × 2^32 (R168). -/
def CamHdr.locate (h : CamHdr) (m : Int) : Int × Nat × Int :=
  let p : Int := (h.period : Int) * 2 ^ 32
  let r := if h.periodic then m / p else 0
  let phi := if h.periodic then m - r * p else clamp 0 p m
  let x := phi * (h.steps : Int)
  let k := (x / p).toNat
  if h.periodic = false ∧ h.n - 1 ≤ k then (r, h.n - 2, p) else (r, k, x % p)

/-- The indices of the points that interpolation at j needs, in the order read, each run in one block: a periodic table
wraps (R168). -/
def CamHdr.runs (h : CamHdr) (k : Nat) : List (List Nat) :=
  if h.periodic then
    let l := (List.range 4).map fun i => (k + h.n + i - 1) % h.n
    let head := l.takeWhile fun i => l.headD 0 ≤ i
    let tail := l.drop head.length
    if tail.isEmpty then [head] else [head, tail]
  else
    let lo := k - 1
    let hi := min (k + 2) (h.n - 1)
    [(List.range (hi + 1 - lo)).map fun i => lo + i]

/-- The points of a cam table read by LGETBU. -/
def State.readPoints (s : State) (j : JobCtx) (table : Nat) (runs : List (List Nat)) : List (Nat × Int) × State :=
  runs.foldl (fun r is =>
    let (es, t) := r.2.runnerRead j.lane true (is.map fun i => table + 3 + i) ((is.length + 3) / 4)
    (r.1 ++ is.zip (es.map fun e => (entryValue e).toInt), t)) ([], s)

/-- A point by its index, extended by RISE or held at the ends. -/
def CamHdr.point (h : CamHdr) (ps : List (Nat × Int)) (i : Int) : Int :=
  let at1 := fun (k : Nat) => ((ps.find? fun p => p.1 == k).map (·.2)).getD 0
  if h.periodic then at1 (i % (h.n : Int)).toNat + i / (h.n : Int) * h.rise
  else at1 (clamp 0 ((h.n : Int) - 1) i).toNat

/-- Twice the slope at a point; one-sided at the ends of a table that is not periodic. -/
def CamHdr.slope2 (h : CamHdr) (ps : List (Nat × Int)) (i : Int) : Int :=
  if h.periodic = false ∧ i = 0 then 2 * (h.point ps 1 - h.point ps 0)
  else if h.periodic = false ∧ i = (h.n : Int) - 1 then 2 * (h.point ps i - h.point ps (i - 1))
  else h.point ps (i + 1) - h.point ps (i - 1)

/-- s in 2^−32 counts before rounding and ds/df, as numerators over 2 D³ and 2 D², with D = period × 2^32 (R168). -/
def CamHdr.interp (h : CamHdr) (ps : List (Nat × Int)) (k : Nat) (f : Int) : Int × Int :=
  let d : Int := (h.period : Int) * 2 ^ 32
  let p0 := h.point ps k
  let p1 := h.point ps (k + 1)
  let t0 := h.slope2 ps k
  let t1 := h.slope2 ps (k + 1)
  let f2 := f * f
  let f3 := f2 * f
  (2 * (2 * f3 - 3 * f2 * d + d * d * d) * p0 + (f3 - 2 * f2 * d + f * d * d) * t0
     + 2 * (3 * f2 * d - 2 * f3) * p1 + (f3 - f2 * d) * t1,
   2 * (6 * f2 - 6 * f * d) * p0 + (3 * f2 - 4 * f * d + d * d) * t0 + 2 * (6 * f * d - 6 * f2) * p1
     + (3 * f2 - 2 * f * d) * t1)

/-- Source 1, the cam. CAM_INVALID is bit 7; it holds pos_cmd. Log 89 (DEDUCED). -/
def srcCam (j : JobCtx) (s : State) (x : AxisRun) (entered : Bool) : SrcOut :=
  let l := s.lane j.lane
  let (e, s1) := s.readMaster j
  let (y, lost) := x.camMaster j e entered
  let table := (l.cmd 20).toNat
  let hold := { y with wRef := 0, aRef := 0, plan := none }
  if 2 ^ 25 < table + 3 then { s := s1, run := hold, bits := 2 ^ 7, left := 0, lost := lost }
  else
    let (hd, s2) := s1.runnerRead j.lane true [table, table + 1, table + 2] 1
    match camHdr table hd with
    | none => { s := s2, run := hold, bits := 2 ^ 7, left := 0, lost := lost }
    | some h =>
      let (r, k, f) := h.locate y.camM
      let (ps, s3) := s2.readPoints j table (h.runs k)
      let d : Nat := h.period * 2 ^ 32
      let (sn, dn) := h.interp ps k f
      let off := (r * h.rise + (l.cmd 21).toInt) * 2 ^ 32
      let v := crndDiv (sn * 2 ^ 32) (2 * d * d * d) + off
      let engage := if y.camReady then y.camEngage else x.posCmd.toInt - v
      let w := crndDiv (dn * y.camWm * (h.steps : Int)) (2 * d * d * h.period)
      { s := s3
        run := { y with posCmd := BitVec.ofInt 96 (v + engage), wRef := w, aRef := perSec (w - x.wRef) j.ta,
                        camEngage := engage, camReady := true, plan := none }
        bits := 0, left := 0, lost := lost }

/-- The source in force by CTRL or the AXIS record (R164); reduced service holds (R408). -/
def sourceCode (j : JobCtx) (ctrl : Word) : Nat := if bit ctrl 2 then field ctrl 1 0 else j.r.source

/-- The source that forms the command, a reaction's first (R198). -/
def srcOf (j : JobCtx) (x : AxisRun) (ctrl : Word) : SrcKind :=
  if x.react = 2 then .quickStop
  else if x.react = 3 ∨ j.reduced then .hold
  else match sourceCode j ctrl with
    | 0 => .profile
    | 1 => .cam
    | 2 => .pulse
    | _ => .analogue

/-- One job of a source. -/
def runSource (k : SrcKind) (j : JobCtx) (s : State) (x : AxisRun) (entered : Bool) : SrcOut :=
  let o := match k with
    | .profile => srcProfile j s x entered
    | .cam => srcCam j s x entered
    | .pulse => srcPulse j s x entered
    | .analogue => srcAnalogue j s x entered
    | .quickStop => srcQuick j s x entered
    | .hold => srcHold s x
  { o with run := { o.run with source := k } }

/-! ## Mode S (R221 to R228) -/

/-- The local pulse accumulator at t(k) as extended, in 2^−32 pulses; a first job starts at 0 (R221, R228). -/
def AxisRun.readPulses (x : AxisRun) (l : Lane) : AxisRun :=
  let raw := l.image 0x74
  { x with pulseInt := if x.ran then x.pulseInt + (raw - x.pulseRaw).toInt else 0, pulseRaw := raw }

/-- Parameter word w of the first STEP block, numbered as the table *STEP parameters*. -/
def JobCtx.stepWord (j : JobCtx) (w : Nat) : Nat :=
  match j.c.chain? j.r.axis with
  | some ch => match ch.blocks.find? (fun b => b.id == 0x0140) with
    | some b => (b.params.getD (w - 2) 0).toNat
    | none => 0
  | none => 0

/-- The pending level of R224. -/
def JobCtx.pending (j : JobCtx) (x : AxisRun) : Option Nat :=
  let up := fun i => j.stepWord (7 + i)
  let w := x.wRef.natAbs
  -- vs = |w_ref| / 256 full steps/s, in units of 2^−40
  let hyst := min (j.stepWord 6) 1000
  if x.level < 8 ∧ up x.level ≠ 0 ∧ up x.level * 2 ^ 40 ≤ w then some (x.level + 1)
  else if 0 < x.level ∧ w * 1000 < up (x.level - 1) * (1000 - hyst) * 2 ^ 40 then some (x.level - 1)
  else none

/-- The position nearest to a command on the grid of a level. -/
def gridPos (posCmd : Int) (level : Nat) : Int := 2 ^ level * crndDiv posCmd (2 ^ level * 2 ^ 32)

/-- The issued position of a stepper station (R224 to R226): whether it moved, and STEP_RATE_LIMIT. -/
def AxisRun.issue (x : AxisRun) (j : JobCtx) : AxisRun × Bool × Bool :=
  let pend := j.pending x
  let qo := gridPos x.posCmd.toInt x.level
  let far := decide (256 < (qo - x.q).natAbs)
  let level := match pend with
    | some p => if !far && gridPos x.posCmd.toInt p == qo then p else x.level
    | none => x.level
  let q := if far then x.q + (qo - x.q).sign * 256 else qo
  ({ x with level := level, pendLevel := if level = x.level then pend else none, q := q, qLast := q, posFb := posOfInt q },
   decide (q ≠ x.qLast), far)

/-- INC of a local pair, its position, and STEP_RATE_LIMIT (R228). Log 36 (DEDUCED). -/
def AxisRun.issueLocal (x : AxisRun) (j : JobCtx) (frac : Word) (incNow : Int) : AxisRun × Int × Bool :=
  let pw : Int := 2 ^ (min (j.stepWord 3 % 16) 8)
  let acc := x.pulseInt * 2 ^ 32 + (frac.toNat : Int) + incNow * (j.ta : Int)
  let want := crndDiv (x.posCmd.toInt - acc * pw) ((pw.toNat) * j.ta)
  let imax : Int := if j.stepWord 4 = 0 then 0 else ((2 ^ 32 / (2 * j.stepWord 4) : Nat) : Int)
  let inc := clamp (-imax) imax want
  let q := pw * ((acc + inc * (j.ta : Int)) / 2 ^ 32)
  ({ x with q := q, qLast := q, posFb := posOfInt q }, inc, inc != want)

end Sys2Proof.Machine
end

