-- ==== Sys2Proof/Machine/AxisJob.lean ====
section
/-!
DEFINITION. The axis job (06_axis_loops, R151): enable and feedback, the chain with its hand-over (07, R201 to R206), the
output area, station compare (09, R253, R254), the published items, and the commands TAKE and DONE (R99, R139, R273).
-/
namespace Sys2Proof.Machine
open Sys2Proof

/-! ## Chain layout (R146) -/

/-- The blocks of a chain with the page offsets of their stages and of their parameters after the shape word.
Log 26 (DESIGN CHOICE). -/
def chainLayout (off : Nat) : List BlockRec → List (BlockRec × Nat × Nat)
  | [] => []
  | b :: t =>
    let pr := off + 4 * stageWords (b.params.getD 0 0)
    (b, off, pr) :: chainLayout (pr + 4 * (b.params.length - 1)) t

/-- The layout of the chain of an axis, from page offset 0x300. Log 26 (DESIGN CHOICE). -/
def Charter.layoutOf (c : Charter) (a : Nat) : List (BlockRec × Nat × Nat) :=
  match c.chain? a with
  | some ch => chainLayout 0x300 ch.blocks
  | none => []

/-- The zero stage of a block. -/
def BlockRec.zeroStage (b : BlockRec) : Stage :=
  let sh := b.params.getD 0 0
  Stage.zero (field sh 7 0) (field sh 15 8)

/-- Every stage of a chain stored as a zero stage. -/
def Lane.zeroStages (l : Lane) : List (BlockRec × Nat × Nat) → LaneRes Lane
  | [] => .ok l
  | (b, st, _) :: t =>
    match l.storeWords (0x1000 + st) b.zeroStage.words with
    | .ok l' => l'.zeroStages t
    | .error e => .error e

/-- First place of a block ID in a chain. -/
def firstBlock (id : Nat) (l : List (BlockRec × Nat × Nat)) : Option Nat := l.findIdx? (fun b => b.1.id == id)

/-- The torque point: the block after which the torque demand is matched (R202). -/
def torquePoint (mode : Nat) (l : List (BlockRec × Nat × Nat)) : Option Nat :=
  match mode with
  | 0 => match l.find? (fun b => b.1.id == 0x0111) with
    | some b => if b.1.mainSrc < l.length then some b.1.mainSrc else none
    | none => none
  | 1 => if l.isEmpty then none else some (l.length - 1)
  | _ => none

/-! ## Input stages (R156, R158) -/

/-- A Q64.32 difference formed by PBF and NRND, with the flags of both (R127, R156). -/
def diffTerm (a b : Pos) : Acc :=
  let (d, g) := posDiff a b
  ({ a := d, sc := 30, f := g } : Acc).fl.acc
/-- A quantity in 2^−32 as a term. -/
def q32Term (v : Int) : Acc := { a := v, sc := 30 }

/-- The angle index j of a Mode I axis (R158). -/
def angleIndex (posFb : Pos) (cpr pp offs : Nat) : Int :=
  let m := (posFb.toInt / 2 ^ 32 - (offs : Int)) % (cpr : Int)
  crndDiv ((m * pp) % (cpr : Int) * 16384) cpr % 16384

/-- GEOMETRY_INVALID (R162). -/
def geometryBad (l : Lane) : Bool :=
  l.cmd 22 == 0 || field (l.cmd 23) 7 0 == 0 || decide (64 < field (l.cmd 23) 7 0)

/-- The input stages in the order of the table *Input stages*, and the flags that forming them raises in LFLG. -/
structure Inputs where
  pos : Stage
  vel : Stage
  acc : Stage
  elec : Stage
  ang : Stage
  trq : Stage
  step : Stage
  flags : LFlags
  deriving DecidableEq, Repr

/-- The input stages of a job: `dth` is the increment of POS_FB since the last job in 2^−32 counts, `mv` that q has
moved. -/
def mkInputs (j : JobCtx) (l : Lane) (x : AxisRun) (dth : Int) (mv : Bool) : Inputs :=
  let hasLoad := bit j.r.loadFb 30
  let s16 := fun (off hi lo : Nat) => signed 16 (field (l.image off) hi lo)
  let posT := [diffTerm x.posCmd x.posFb, if hasLoad then diffTerm x.posCmd x.posLoad else Acc.zero, q32Term dth]
  let velT := [q32Term x.prim.w, q32Term x.wRef, q32Term (if hasLoad then x.load.scaledW else 0)]
  let form := fun (ts : List Acc) => (Stage.form ts []).1
  let trig := fun (i : Int) (t : List Int) => ({ e := 0, out := [cosAt i, sinAt i] ++ t, st := [] } : Stage)
  { pos := form posT
    vel := form velT
    acc := form [q32Term x.aRef]
    elec := if j.r.mode = 0 then
        form ([s16 0x08 15 0, s16 0x08 31 16, s16 0x0C 15 0, (field (l.image 0x0C) 31 16 : Int)].map
          fun v => (Fl.ofInt v).acc)
      else Stage.zero 4 0
    ang := if j.r.mode = 0 then
        trig (angleIndex x.posFb (l.cmd 22).toNat (field (l.cmd 23) 7 0) (l.cmd 24).toNat) []
      else Stage.zero 2 0
    trq := if j.r.mode = 1 then form [((Fl.ofInt (s16 0x10 15 0)).shift (-14)).acc] else Stage.zero 1 0
    step := if j.r.mode = 2 ∧ isLocal j.r.target = false then
        trig (16 * (x.q % 1024)) [if mv then 2 ^ 30 else 0]
      else Stage.zero 3 0
    flags := ((Stage.form posT []).2.or (Stage.form velT []).2).or (Stage.form [q32Term x.aRef] []).2 }

/-- The input stages written over the image input area. -/
def Inputs.overlay (i : Inputs) (l : Lane) : Lane :=
  ((((((((l.raise i.flags).overlay 0x00 i.pos.words).overlay 0x14 i.vel.words).overlay 0x28 i.acc.words).overlay 0x34
    i.elec.words).overlay 0x4C i.ang.words).overlay 0x5C i.trq.words).overlay 0x68 i.step.words)

/-- The output elements of a stage. -/
def Stage.els (s : Stage) : List Fl := s.out.map fun m => { m := m, e := s.e }
/-- The states of a stage. -/
def Stage.sts (s : Stage) : List Fl := s.st.map fun m => { m := m, e := s.e }

/-! ## The chain (R147, R151, R202, R203) -/

/-- A hand-over in hand: the outgoing torque and voltage in 2^−60 pu where they are matched. -/
structure HandOver where
  tau : Option Int
  v : Option (Int × Int)
  deriving DecidableEq, Repr

/-- The stage that stands in the page image at an offset, `n` words of it. -/
def Lane.stageAt (l : Lane) (off n : Nat) : Stage := Stage.ofWords (l.imageWords off n)

/-- Words of the stage of a block. -/
def BlockRec.words (b : BlockRec) : Nat := stageWords (b.params.getD 0 0)

/-- The output elements of block i of a chain as they stand in the image; none where there is no such block. -/
def Lane.blockEls (l : Lane) (lay : List (BlockRec × Nat × Nat)) (i : Nat) : List Fl :=
  match lay[i]? with
  | some b => (l.stageAt b.2.1 b.1.words).els
  | none => []

/-- The chain under way. Every block reads its sources from the page image, and so sees what a block before it has written
there (R148). `held` are stages as the blocks left them, with what stands in the image in their place where an offset is passed
on. -/
structure Walk where
  s : State
  bits : Nat
  f0s : List Fl
  hT : Int
  hD : Int
  hQ : Int
  tau : Int
  vd : Int
  vq : Int
  n15 : Word
  held : List (Nat × List Word × List Word)
  fin : CodeEnd

/-- A block of the manual called: its parameters, sources, input stages and its own stage come from the image; its stage is
formed and stored. In reduced service STEP runs at I_HOLD (R408). -/
def Walk.afmin (w : Walk) (j : JobCtx) (lay : List (BlockRec × Nat × Nat)) (ho : Option HandOver) (f : BlkIn → BlkOut)
    (b : BlockRec) (st pr : Nat) (firstVelc firstIdq matchT : Bool) : Walk :=
  let l := w.s.lane j.lane
  let stage := l.stageAt st b.words
  let ws := l.imageWords pr (b.params.length - 1)
  let prm := if j.reduced && b.id == 0x0140 then ws.take 12 ++ (ws.drop 14).take 2 ++ ws.drop 14 else ws
  let sigId := (prm.getD 0 0).toNat
  let (sig, s1) :=
    if b.id = 0x0200 then (l.image (0x2E0 + 4 * w.f0s.length), w.s)
    else if b.id = 0x0130 ∧ sigId ≠ 0 ∧ sigId < 2 ^ 25 then
      let (es, t) := w.s.runnerRead j.lane false [sigId] 1
      (entryValue (es.getD 0 0), t)
    else (0, w.s)
  let src := fun (i : Nat) => if i = 0xFF then [] else l.blockEls lay i
  let inp := fun (off n : Nat) => (l.stageAt off n).els
  let ta := Fl.ofRatio j.ta 1000000000
  let b0 : BlkIn :=
    { prm := prm, main := src b.mainSrc, aux := src b.auxSrc, mainFF := b.mainSrc == 0xFF, auxFF := b.auxSrc == 0xFF,
      own := stage.els, st := stage.sts, pos := inp 0x00 5, vel := inp 0x14 5, acc := inp 0x28 3,
      elec := inp 0x34 6, ang := inp 0x4C 4, trq := inp 0x5C 3, step := inp 0x68 5, ta := ta, sig := sig }
  let b1 := match ho with
    | some h =>
      if firstVelc && matchT then { b0 with st := match h.tau with | some t => velcPreload b0 t | none => b0.st }
      else if firstIdq then { b0 with st := match h.v with | some v => idqPreload b0 v.1 v.2 | none => b0.st }
      else b0
    | none => b0
  let o := f b1
  let (stage', fl) := Stage.form o.out o.st
  let counts := !((b.id == 0x0121 && !firstVelc) || (b.id == 0x0111 && !firstIdq))
  match ((s1.lane j.lane).raise fl).storeWords (0x1000 + st) stage'.words with
  | .ok l' =>
    { w with
      s := s1.mapLane j.lane fun _ => l'
      bits := if counts then w.bits ||| o.bits else w.bits
      f0s := match o.f0 with | some v => w.f0s ++ [v] | none => w.f0s }
  | .error e => { w with s := s1, fin := .stopped e }

/-- The image address of a source: a block's stage, or the input area. -/
def srcAddr (lay : List (BlockRec × Nat × Nat)) (i : Nat) : Nat :=
  match lay[i]? with
  | some b => 0x1000 + b.2.1
  | none => 0x1000

/-- A block of lane code called, with the registers of R147 (R147, R148). -/
def Walk.custom (w : Walk) (j : JobCtx) (lay : List (BlockRec × Nat × Nat)) (b : BlockRec) (st pr addr : Nat) : Walk :=
  let regs : EntryRegs :=
    { ix0 := srcAddr lay b.mainSrc, ix1 := srcAddr lay b.auxSrc, iy0 := 0x1000 + pr, iy1 := 0x1000 + st,
      n0 := BitVec.ofNat 32 j.r.axis, n1 := BitVec.ofNat 32 b.inst, n2 := BitVec.ofNat 32 j.stamp,
      n3 := BitVec.ofNat 32 (j.ta / j.period) }
  let (s1, e) := State.runCode j.lane codeFuel (w.s.enterBlock j.lane addr regs)
  match e with
  | .returned => { w with s := s1, n15 := (s1.lane j.lane).n.getD 15 0 }
  | e => { w with s := s1, fin := e }

/-- The output elements of a block that has just run, as they stand in the image. -/
def Walk.els (w : Walk) (j : JobCtx) (b : BlockRec) (st : Nat) : List Fl := ((w.s.lane j.lane).stageAt st b.words).els

/-- Elements of a block's stage replaced in the image for what follows (R203, R204). -/
def Walk.pass (w : Walk) (j : JobCtx) (b : BlockRec) (st : Nat) (new : List Fl) : Walk :=
  let l := w.s.lane j.lane
  let ws := l.imageWords st b.words
  let (stage, fl) := Stage.form (accs new) (accs (Stage.ofWords ws).sts)
  { w with
    held := (st, ws, stage.words) :: w.held
    s := w.s.mapLane j.lane fun l => (l.raise fl).overlay st stage.words }

/-- The torque point reached: a hand-over job forms h_t there, and the torque is passed on with its offset. -/
def Walk.atTorque (w : Walk) (j : JobCtx) (ho : Option HandOver) (b : BlockRec) (st : Nat) : Walk :=
  let els := w.els j b st
  let first := (elAt els 0).fix60
  let h := match ho with
    | some o => match o.tau with | some t => t - first | none => 0
    | none => w.hT
  let w1 := { w with hT := h, tau := first + h }
  if h = 0 then w1
  else w1.pass j b st (fl60 (first + h) :: els.drop 1)

/-- The voltage point reached: elements 0 and 1 of the first IDQ. -/
def Walk.atVoltage (w : Walk) (j : JobCtx) (ho : Option HandOver) (b : BlockRec) (st : Nat) : Walk :=
  let els := w.els j b st
  let d := (elAt els 0).fix60
  let q := (elAt els 1).fix60
  let (hd, hq) := match ho with
    | some o => match o.v with | some v => (v.1 - d, v.2 - q) | none => (0, 0)
    | none => (w.hD, w.hQ)
  let w1 := { w with hD := hd, hQ := hq, vd := d + hd, vq := q + hq }
  if hd = 0 ∧ hq = 0 then w1
  else w1.pass j b st (fl60 (d + hd) :: fl60 (q + hq) :: els.drop 2)

/-- One block of the chain, and the points that stand after it. Log 25 (DEDUCED). -/
def Walk.block (w : Walk) (j : JobCtx) (ho : Option HandOver) (lay : List (BlockRec × Nat × Nat))
    (i : Nat) (b : BlockRec) (st pr : Nat) : Walk :=
  let tp := torquePoint j.r.mode lay
  let fv := firstBlock 0x0121 lay == some i
  let fi := firstBlock 0x0111 lay == some i
  let w1 := match Sys2Proof.Machine.afmin b.id with
    | some f => w.afmin j lay ho f b st pr fv fi (match tp with | some t => decide (i ≤ t) | none => false)
    | none => match (w.s.blockTable j.lane).find? (fun (e : Nat × Nat) => e.2 == b.id) with
      | some (addr, _) => w.custom j lay b st pr addr
      | none => w
  match w1.fin with
  | .returned =>
    let w2 := if tp == some i then w1.atTorque j ho b st else w1
    if fi then w2.atVoltage j ho b st else w2
  | _ => w1

/-- The blocks of a chain in index order; a stop or a non-zero N15 ends it. -/
def Walk.chain (j : JobCtx) (ho : Option HandOver) (lay : List (BlockRec × Nat × Nat)) :
    List (Nat × BlockRec × Nat × Nat) → Walk → Walk
  | [], w => w
  | (i, b, st, pr) :: t, w =>
    let w1 := w.block j ho lay i b st pr
    match w1.fin with
    | .returned => if w1.n15 = 0 then Walk.chain j ho lay t w1 else w1
    | _ => w1

/-- The stages as the blocks left them put back into the image, but for one that another block has written since. -/
def Walk.restore (w : Walk) (j : JobCtx) : Walk :=
  { w with
    s := w.s.mapLane j.lane fun l => w.held.foldl (fun l h =>
      if l.imageWords h.1 h.2.2.length = h.2.2 then l.overlay h.1 h.2.1 else l) l }

/-! ## Hand-over values (R201 to R205) -/

/-- HO_TAU in ns (R194). -/
def hoTau (w : Word) : Nat :=
  (if w = 0 then 20000 else min (max w.toNat 1000) 10000000) * 1000

/-- An offset after one more job (R204), in 2^−60 pu, rounded by crnd. Log 111 (DESIGN CHOICE). -/
def decayed (h : Int) (ta tau : Nat) : Int :=
  let v := crndDiv (h * expNeg ta tau) (2 ^ 96)
  if v.natAbs < 2 ^ 36 then 0 else v

/-- The outgoing values under the mode rule of R205. -/
def handValues (x : AxisRun) (mode tscale : Nat) : HandOver :=
  let ts := if tscale = 0 then 65536 else tscale
  if x.outMode = 2 ∨ mode = 2 then { tau := none, v := none }
  else
    { tau := some (if x.outMode = 1 ∧ mode = 0 then crndDiv (x.tauOut * 65536) ts
                   else if x.outMode = 0 ∧ mode = 1 then crndDiv (x.tauOut * ts) 65536 else x.tauOut)
      v := if x.outMode = 0 ∧ mode = 0 then some (x.vdOut, x.vqOut) else none }

/-! ## Output area (R159, R198, R408) -/

/-- BRAKE_REL of an output. -/
def brakeRel (j : JobCtx) (x : AxisRun) (ctrl : Word) (en : Bool) : Bool :=
  if j.reduced then en else x.react ≠ 1 && bit ctrl 9

/-- A 16-bit code of a value × 2^14. -/
def code14 (f : Fl) : Nat := lowBits 16 (clamp (-32767) 32767 (f.scaled 14))
/-- A duty code. -/
def duty (f : Fl) : Nat := (clamp 0 65535 (f.scaled 16)).toNat

/-- Output words 0 and 1 of an enabled axis from its last stage. -/
def outWords (j : JobCtx) (els : List Fl) (inc : Int) (brake : Bool) : Word × Word :=
  let tail := 2 ^ 16 + flagAt brake 17
  match j.r.mode with
  | 0 => (BitVec.ofNat 32 (duty (elAt els 0) + duty (elAt els 1) * 65536), BitVec.ofNat 32 (duty (elAt els 2) + tail))
  | 1 => (BitVec.ofNat 32 (code14 (elAt els 0)), BitVec.ofNat 32 tail)
  | _ =>
    if isLocal j.r.target then (BitVec.ofInt 32 inc, 0x10000)
    else (BitVec.ofNat 32 (code14 (elAt els 0) + code14 (elAt els 1) * 65536), BitVec.ofNat 32 tail)

/-- Output words of an axis whose output stage is off. -/
def offWords (j : JobCtx) (x : AxisRun) (ctrl : Word) : Word × Word :=
  (0, if isLocal j.r.target then 0 else BitVec.ofNat 32 (flagAt (brakeRel j x ctrl false) 17))

/-! ## Station compare (R253, R254) -/

/-- One station unit of an axis served in a job: checks of events sent come first, then the prediction. `x` is POS_FB in
2^−32 counts, `w` the speed in 2^−32 counts/s, `live` that EN is 1 and the station present. The second result tells that
an event was sent. -/
def State.serveUnit (s : State) (j : JobCtx) (m : Nat) (x w : Int) (neg still live : Bool) : State × Bool :=
  let c0 := s.scmp m
  let xi := x / 2 ^ 32
  let due := c0.checks.filter fun k => k.1 ≤ j.tk
  let missed := due.any fun k => if k.2.2 then decide (k.2.1 < xi) else decide (xi < k.2.1)
  let s1 := s.mapScmp m fun c =>
    { c with checks := c.checks.filter (fun k => j.tk < k.1), miss := c.miss || missed }
  let v := c0.val.toInt
  let down := decide (w < 0)
  let dirOk := match c0.dirOf with
    | 0 => decide (0 < w)
    | 1 => down
    | 2 => w != 0
    | _ => false
  let ahead := if down then decide (v < xi) else decide (xi < v)
  if !live || !c0.armed || !dirOk || (c0.behind && !ahead) then (s1, false)
  else
    let tau := crndDiv ((v * 2 ^ 32 - x) * (if down then -1000000000 else 1000000000)) w.natAbs
    let tc0 := (j.tk : Int) + tau
    if ((j.tk + 2 * j.ta : Nat) : Int) ≤ tc0 then (s1, false)
    else
      let late := decide (tc0 < ((j.tk + j.ta : Nat) : Int))
      let tc := if late then j.tk + j.ta else tc0.toNat
      let st := field j.r.target 8 0
      let ev : TimedEvt :=
        { unit := m, station := st, tc := tc, out := field c0.cfg 17 16, action := field c0.cfg 11 10,
          pulseW := if field c0.cfg 31 20 = 0 then 1 else field c0.cfg 31 20, deferred := false }
      let port := match j.c.slot? st with | some r => r.port | none => 0
      let s2 := (s1.mapScmp m fun c =>
        { (c.fire (BitVec.ofInt 64 (v + c.step.toInt)) tc) with
          late := c.late || late, checks := c.checks ++ [(tc, v, down)] }).mapPort port fun p =>
            { p with timedQ := p.timedQ ++ [ev] }
      let s3 := s2.mapIo fun io => { io with sFired := setBit io.sFired m }
      let s4 := if bit c0.cfg 14 then s3.raise 4 (8 + m) else s3
      let d := xi - (s4.scmp m).val.toInt
      let s5 := if c0.step ≠ 0 ∧ behindOf c0.dirOf d neg still = true then s4.scmpBehind m else s4
      (s5, true)

/-- The station units that watch the axis, in order. -/
def State.serveUnits (s : State) (j : JobCtx) (x w : Int) (neg still live : Bool) : State × Bool :=
  if isLocal j.r.target then (s, false)
  else
    (List.range 32).foldl (fun r m =>
      if field (r.1.scmp m).cfg 7 0 = j.r.axis then
        let (t, f) := r.1.serveUnit j m x w neg still live
        (t, r.2 || f)
      else r) (s, false)

/-- COMPARE_BEHIND of an axis. -/
def State.axisBehind (s : State) (a : Nat) : Bool :=
  (List.range 32).any fun m => field (s.scmp m).cfg 7 0 == a && (s.scmp m).behind

/-! ## Published items (R161, R208, R231, R257) -/

/-- Items of an axis published by a lane. -/
structure Pub where
  s : State
  lane : Nat
  axis : Nat
  stamp : Nat
  stale : Bool

/-- One item published as it stands, a transfer of the lane; `rests` says that it rests on the sample (R285, R294). -/
def Pub.put (p : Pub) (item : Nat) (v : Word) (rests : Bool) (sat : Bool := false) : Pub :=
  let s := if p.s.reduced then p.s else p.s.transfer p.lane
  { p with s := s.publish p.lane (sigId 1 p.axis item) v (p.stale && rests) sat p.stamp }

/-- A signed item, saturated. -/
def Pub.int (p : Pub) (item : Nat) (v : Int) (rests : Bool) : Pub :=
  let c := clamp (-2147483648) 2147483647 v
  p.put item (BitVec.ofInt 32 c) rests (c != v)

/-- An unsigned item, saturated. -/
def Pub.nat (p : Pub) (item : Nat) (v : Int) (rests : Bool) : Pub :=
  let c := clamp 0 4294967295 v
  p.put item (BitVec.ofInt 32 c) rests (c != v)

/-- A Q64.32 item. -/
def Pub.pos (p : Pub) (item : Nat) (v : Pos) (rests : Bool) : Pub :=
  ((p.put item (v.extractLsb' 0 32) rests).put (item + 1) (v.extractLsb' 32 32) rests).put (item + 2)
    (v.extractLsb' 64 32) rests

/-- Element i of the first block of an ID as passed on; 0 where it is absent. -/
def elOf (lay : List (BlockRec × Nat × Nat)) (outs : List (List Fl)) (id i : Nat) : Int :=
  match firstBlock id lay with
  | some k => (elAt (outs.getD k []) i).scaled 16
  | none => 0

/-- PROF_STOP of a command state (R231). -/
def profStop (l : Lane) (x : AxisRun) (limitsBad : Bool) : Pos :=
  let w := l.profWords
  let (d, jk) :=
    if x.source == .quickStop && x.react == 2 then match x.plan with
      | some q => (q.dmax, q.jmax)
      | none => w.quick
    else if limitsBad then w.quick
    else (w.dmax, w.jmax)
  BitVec.ofInt 96 (toQ (stopPoint (kinOf x.posCmd.toInt x.wRef x.aRef) (fx d 256) (fx jk 65536)))

/-- STEP_STAT (R231). -/
def stepStat (j : JobCtx) (x : AxisRun) : Word :=
  if j.r.mode = 2 then BitVec.ofNat 32 (x.level + (x.pendLevel.getD 15) * 16) else 0

/-- f0 of the NOTCH blocks of a chain in chain order, from their parameters and SIG values in the image: published in a job
that does not run them too (R188, R190, R208). -/
def Lane.notchF0s (l : Lane) (lay : List (BlockRec × Nat × Nat)) : List Fl :=
  (indexed (lay.filter fun b => b.1.id == 0x0200)).map fun e =>
    let b := e.2
    notchF0
      { prm := l.imageWords b.2.2 (b.1.params.length - 1), main := [], aux := [], mainFF := false, auxFF := false, own := [],
        st := [], pos := [], vel := [], acc := [], elec := [], ang := [], trq := [], step := [], ta := Fl.zero,
        sig := l.image (0x2E0 + 4 * e.1) }

/-- All items of a job, after the writes that its lane has posted (R289); `els` are the output elements of the chain's
blocks as passed on, none with EN 0. -/
def publishJob (s : State) (j : JobCtx) (l : Lane) (lay : List (BlockRec × Nat × Nat)) (x : AxisRun) (els : List (List Fl))
    (out : Word × Word) (left : Nat) : State :=
  let p : Pub := { s := s.flushPosts j.lane, lane := j.lane, axis := j.r.axis, stamp := j.stamp, stale := bit x.stat 1 }
  let e := crndShift (x.posCmd.toInt - x.posFb.toInt) (-24)
  let p1 := (((p.pos 0x20 x.posCmd false).pos 0x23 x.posFb true).pos 0x26 x.posLoad true).int 0x29 e true
  let p2 := ((p1.int 0x2A (crndShift x.wRef (-32)) false).int 0x2B (crndShift x.prim.w (-32)) true).int 0x2C
    (crndShift x.aRef (-32)) false
  let p3 := ((p2.put 0x2D x.stat true).int 0x2E (crndShift x.camEngage (-32)) false).put 0x2F out.1 true
  let p4 := ((p3.put 0x30 out.2 true).int 0x31 (elOf lay els 0x0110 0) true).int 0x32 (elOf lay els 0x0110 1) true
  let p5 := ((p4.int 0x33 (elOf lay els 0x0111 0) true).int 0x34 (elOf lay els 0x0111 1) true).int 0x35
    (elOf lay els 0x0121 0) true
  let p6 := (p5.put 0x36 (BitVec.ofNat 32 x.feTimer) false).put 0x37
    (BitVec.ofNat 32 (x.react + flagAt x.stopDone 2 + x.cause * 256)) false
  let p7 := ((p6.int 0x38 (crndShift x.hT (-44)) true).int 0x39 (crndShift x.hD (-44)) true).int 0x3A
    (crndShift x.hQ (-44)) true
  let p8 := (List.range 4).foldl (fun p i => p.nat (0x3B + i) ((elAt (l.notchF0s lay) i).scaled 8) true) p7
  let p9 := ((p8.nat 0x3F (left : Int) false).pos 0x40 (profStop l x (bit x.stat 22)) false).put 0x43
    (stepStat j x) false
  (((p9.put 0x44 (l.image 0x20) true).put 0x45 (l.image 0x24) true).pos 0x46 x.zPos true).int 0x49
    (crndShift x.load.scaledW (-32)) true |>.s

/-! ## The job (R151) -/

/-- What the first half of a job forms: feedback, enable and causes. -/
structure Front where
  s : State
  x : AxisRun
  present : Bool
  enable : Bool
  geom : Bool
  loadInvalid : Bool

/-- Feedback of a job extended, its speed, and counts lost marked in FBK_AXSTAT (R241 to R245, R257). -/
def jobFeedback (s : State) (j : JobCtx) (l : Lane) (x : AxisRun) : State × AxisRun :=
  let a := s.axis j.r.axis
  let rec0 := l.imageWords 0x20 8
  let rec1 := l.imageWords 0x40 8
  let i0 : FbIn :=
    { cfg := a.cfg0, recd := rec0, invalid := bit (rec0.getD 1 0) 4, latched := bit (rec0.getD 1 0) 5, ta := j.ta,
      num := 1, den := 1 }
  let i1 : FbIn :=
    { cfg := a.cfg1, recd := rec1, invalid := bit (l.image 4) 2, latched := bit (rec1.getD 1 0) 4 && bit (rec1.getD 1 0) 5,
      ta := j.ta, num := (l.cmd 25).toInt, den := (l.cmd 26).toNat }
  let lost := fun (s : State) (load : Bool) => s.mapAxis j.r.axis fun a =>
    if load then { a with stat1 := setBit a.stat1 3 } else { a with stat0 := setBit a.stat0 3 }
  let (s1, x1) :=
    if j.r.mode = 2 then (s, if isLocal j.r.target then x.readPulses l else x)
    else
      let o := x.prim.extend x.posFb (s.roleBits j.r.axis j.r.primary false) i0
      let z := { x with prim := o.run, posFb := o.pos, zSeen := x.zSeen || bit (rec0.getD 1 0) 8 }
      (if o.lost then lost s false else s,
       { z with zPos := z.posFb - BitVec.ofInt 96 ((rec0.getD 0 0 - rec0.getD 6 0).toInt * 2 ^ 32) })
  if bit j.r.loadFb 30 then
    let o := x1.load.extend x1.posLoad (s.roleBits j.r.axis j.r.loadFb true) i1
    (if o.lost then lost s1 true else s1, { x1 with load := o.run, posLoad := o.pos })
  else (s1, x1)

/-- The station of the axis is present; a local target always is. -/
def State.targetPresent (s : State) (r : AxisRec) : Bool :=
  isLocal r.target || (s.station (field r.target 8 0)).present

/-- The first half of a job: feedback, clearing of a reaction, and the causes that the job finds before its source. -/
def jobFront (s : State) (j : JobCtx) (x0 : AxisRun) : Front :=
  let l := s.lane j.lane
  let ctrl := l.cmd 3
  let (s1, x1) := jobFeedback s j l { x0 with reactNew := false }
  let stn := !isLocal j.r.target
  let present := s1.targetPresent j.r
  let enable := j.reduced || bit ctrl 8
  let (s2, x2) :=
    if x1.masterLost then
      let (e, t) := s1.readMaster j
      if (e.bind (masterFresh j.stamp)).isSome then (t, { x1 with masterLost := false, camStale := 0 }) else (t, x1)
    else (s1, x1)
  let fault := stn && present && field (l.image 0) 2 1 != 0
  let inv := j.r.mode ≠ 2 && bit (l.image 0x24) 4
  let holding := (if x2.masterLost then [3] else []) ++ (if stn && !present then [4] else [])
    ++ (if fault then [5] else []) ++ (if inv then [6] else [])
  let x3 := x2.tryClear enable present holding
  let x4 := if enable then x3 else { x3 with needOff := false }
  let codes := (if fault then [5] else [])
    ++ (if j.r.mode ≠ 2 ∧ invJobs (s1.axis j.r.axis).cfg0 ≤ x4.prim.invalid then [6] else [])
  { s := s2, x := x4.enter (reactionOf j.r j.reduced) codes, present := present,
    enable := enable && !x4.needOff, geom := j.r.mode ≠ 0 || !geometryBad l,
    loadInvalid := bit (l.image 4) 2 }

/-- EN of a job (R152). -/
def Front.en (f : Front) (j : JobCtx) (l : Lane) (x : AxisRun) : Bool :=
  let stn := !isLocal j.r.target
  f.enable && (!stn || (f.present && (f.s.station (field j.r.target 8 0)).ready && bit (l.image 0) 0)) && x.react ≠ 1
    && f.geom

/-- The command of a job formed: with EN 1 the source in force, after a start where EN was 0; with EN 0 the command follows
the feedback (R151, R152). Mode S then issues its position. -/
structure Cmd where
  s : State
  x : AxisRun
  en : Bool
  started : Bool
  changed : Bool
  moved : Bool
  inc : Int
  bits : Nat
  left : Nat
  lost : Bool

/-- Mode S: the issued position after the command; with EN 0 nothing is issued. -/
def Cmd.issue (c : Cmd) (j : JobCtx) (l : Lane) : Cmd :=
  if j.r.mode ≠ 2 ∨ c.en = false then c
  else if isLocal j.r.target then
    let p := c.s.io.step.getD (field j.r.target 3 0) StepPair.reset
    let (x, inc, lim) := c.x.issueLocal j (l.image 0x70) (if p.en then p.inc else 0)
    { c with x := x, inc := inc, bits := c.bits ||| flagAt lim 24 }
  else
    let (x, mv, lim) := c.x.issue j
    { c with x := x, moved := mv, bits := c.bits ||| flagAt lim 24 }

/-- GEAR_INVALID and CAM_INVALID as the last job left them, while the source of the bit is the one in force by R164: a job in
which the source does not run finds neither GEAR_DEN nor the cam table (R162). -/
def AxisRun.sourceBits (x : AxisRun) (src : Nat) : Nat :=
  flagAt (bit x.stat 6 && src == 2) 6 + flagAt (bit x.stat 7 && src == 1) 7

/-- What a command formed in this job has found of them and of LIMITS_INVALID, kept for the command that takes its place. -/
def AxisRun.found (x : AxisRun) (c : Cmd) : AxisRun :=
  { x with stat := BitVec.ofNat 32 (flagAt (c.bits.testBit 6) 6 + flagAt (c.bits.testBit 7) 7
             + flagAt (c.bits.testBit 22) 22) }

/-- The command of a job under the reaction that the runner state holds. With EN 0 Mode S has no pending level.
Log 108 (DESIGN CHOICE). -/
def jobCommand (f : Front) (j : JobCtx) (l : Lane) (x : AxisRun) : Cmd :=
  let en := f.en j l x
  let kept := x.sourceBits (sourceCode j (l.cmd 3))
  if !en then
    let (y, b) := { x with posCmd := x.posFb, wRef := 0, aRef := 0, plan := none, hT := 0, hD := 0, hQ := 0, hand := .none,
                           pendLevel := none }.profRest l.profWords
    { s := f.s, x := y, en := false, started := false, changed := false, moved := false, inc := 0, bits := kept ||| b,
      left := 0, lost := false }
  else
    let start := !x.en
    let k := srcOf j x (l.cmd 3)
    let entered := start || k != x.source
    let x1 := if start then { x with posCmd := x.posFb, wRef := 0, aRef := 0, plan := none, hand := .none } else x
    let o := runSource k j f.s x1 entered
    let (y, b) := if k == .profile then (o.run, o.bits) else o.run.profRest l.profWords
    ({ s := o.s, x := y, en := true, started := start, changed := !start && k != x.source, moved := false, inc := 0,
       bits := b ||| (if k == .quickStop || k == .hold then kept else o.bits), left := o.left, lost := o.lost } : Cmd).issue j l

/-- The command with the causes it brings about: MASTER_LOST and a following-error trip take effect in this job's own
output, which is formed again under the reaction (R197, R199, R206). A trip of the job that finds MASTER_LOST is judged on the
timer as it was before that entry set it to 0: the two arise together. -/
def jobSupervised (f : Front) (j : JobCtx) (l : Lane) : Cmd :=
  let react := reactionOf j.r j.reduced
  let skip := (j.r.mode ≠ 2 && bit (l.image 0x24) 4) || bit (l.image 4) 0 || (bit (l.cmd 28) 16 && f.loadInvalid)
  let c1 := jobCommand f j l f.x
  let (x0, c2) :=
    if c1.lost then
      let y := { ((f.x.enter react [3]).found c1) with masterLost := true, camStale := c1.x.camStale }
      (y, jobCommand { f with s := c1.s } j l y)
    else (f.x, c1)
  let x3 := (c2.x.feStep l c2.en skip).1
  let trip := ({ c2.x with feTimer := f.x.feTimer }.feStep l c2.en skip).2
  if !trip then { c2 with x := x3 }
  else
    let y := x0.join react [1]
    let y1 := { y with feTrip := true }
    if y1.react = x0.react then
      { c2 with x := { x3 with feTrip := true, cause := y1.cause } }
    else jobCommand { f with s := c2.s } j l (y1.found c2)

/-- AXIS_STAT of a job but for its blocks' bits (R161, R162, R207, R230, R256). -/
def jobStat (s : State) (j : JobCtx) (l : Lane) (f : Front) (c : Cmd) (x : AxisRun) (sent : Bool) : Nat :=
  let ctrl := l.cmd 3
  let a := s.axis j.r.axis
  let src := sourceCode j ctrl
  let warn := (l.cmd 30).toNat
  flagAt c.en 0 + flagAt (bit (l.image 4) 0) 1 + src * 8 + flagAt (x.masterLost && src == 1) 5
    + flagAt (!f.geom) 11 + flagAt (warn ≠ 0 && decide (warn * 2 ^ 24 < x.fe (bit (l.cmd 28) 16))) 12
    + flagAt x.feTrip 13 + flagAt (x.react ≠ 0) 14 + flagAt (x.hT ≠ 0 || x.hD ≠ 0 || x.hQ ≠ 0) 15
    + flagAt (j.r.mode ≠ 2 && bit (l.image 0x24) 4) 25 + flagAt (bit a.stat0 3 || bit a.stat1 3) 26
    + flagAt (bit (l.image 0x24) 2) 27 + flagAt (j.r.mode ≠ 2 && x.prim.standstill) 28
    + flagAt (j.r.mode ≠ 2 && x.prim.count) 29 + flagAt (s.axisBehind j.r.axis) 30 + flagAt sent 31

/-- The frame and the output words put into the image, which marks their lines. -/
def Lane.frame (l : Lane) (x : AxisRun) (out : Word × Word) : LaneRes Lane := do
  let l1 ← l.storeWords 0x1100 [out.1, out.2]
  l1.storeWords 0x1200 (posWords x.posCmd ++ posWords x.posFb ++ posWords x.posLoad)

/-- A job's second half: station compare, which is served in every job (R253), chain, output, items. It leaves the runner
state for DONE; a chain that a block ended
leaves its N15 and nothing of the runner's own (R148, R151). Log 22 (DESIGN CHOICE). -/
def jobRun (s : State) (j : JobCtx) (x0 : AxisRun) : State × Option AxisRun × Word × CodeEnd :=
  let lay := j.c.layoutOf j.r.axis
  let f := jobFront s j x0
  let l := f.s.lane j.lane
  let c := jobSupervised f j l
  let ho := c.en && !c.started && x0.en && (c.changed || x0.hand != .none)
  let hv := if ho then some (handValues x0 j.r.mode (l.cmd 31).toNat) else none
  let tau := hoTau (l.cmd 29)
  let dec := fun (h : Int) => if ho || !c.en || c.started then 0 else decayed h j.ta tau
  let w0 : Walk :=
    { s := c.s, bits := 0, f0s := [], hT := dec x0.hT, hD := dec x0.hD, hQ := dec x0.hQ, tau := 0, vd := 0,
      vq := 0, n15 := 0, held := [], fin := .returned }
  let zeroed : LaneRes Lane := if c.en && !c.started then .ok (c.s.lane j.lane) else (c.s.lane j.lane).zeroStages lay
  match zeroed with
  | .error e => (c.s, none, 0, .stopped e)
  | .ok lz =>
    let s1 := c.s.mapLane j.lane fun _ => lz
    let inp := mkInputs j l c.x (c.x.posFb - x0.posFb).toInt c.moved
    let (s2, sent) := s1.serveUnits j c.x.posFb.toInt (if j.r.mode = 2 then 0 else c.x.prim.w) (bit (l.image 0x24) 2)
      c.x.prim.standstill (c.en && f.present)
    let walked :=
      if c.en then
        Walk.chain j hv lay ((indexed lay).map fun p => (p.1, p.2.1, p.2.2.1, p.2.2.2))
          { w0 with s := s2.mapLane j.lane fun l => inp.overlay l }
      else { w0 with s := s2 }
    let els := if c.en then (List.range lay.length).map fun i => (walked.s.lane j.lane).blockEls lay i else []
    let w := walked.restore j
    match w.fin with
    | .returned =>
      if w.n15 ≠ 0 then
        match (w.s.lane j.lane).storeWords 0x12FC [w.n15] with
        | .ok l' => (w.s.mapLane j.lane fun _ => l', none, w.n15, .returned)
        | .error e => (w.s, none, 0, .stopped e)
      else
        let brake := brakeRel j c.x (l.cmd 3) c.en
        let out := if c.en then outWords j (els.getLast?.getD []) c.inc brake else offWords j c.x (l.cmd 3)
        let x1 := { c.x with
          en := c.en, hT := w.hT, hD := w.hD, hQ := w.hQ, hand := .none, outMode := j.r.mode,
          tauOut := w.tau, vdOut := w.vd, vqOut := w.vq, ran := true }
        let x2 := { x1 with stat := BitVec.ofNat 32 (jobStat w.s j l f c x1 sent ||| c.bits ||| w.bits) }
        match (w.s.lane j.lane).frame x2 out with
        | .ok l' =>
          let s3 := w.s.mapLane j.lane fun _ => l'
          (publishJob s3 j l lay x2 els out c.left, some x2, 0, .returned)
        | .error e => (w.s, none, 0, .stopped e)
    | e => (w.s, none, 0, e)

/-- What a job of an axis works with. -/
def State.jobCtx (s : State) (n : Nat) (j : Job) (c : Charter) (r : AxisRec) : JobCtx :=
  let t := s.period
  { lane := n, c := c, r := r, tk := s.cyc.tk - (s.cyc.k - j.k) * t, ta := j.d * t, period := t, stamp := j.stamp,
    reduced := s.reduced }

/-- The job of lane n changed. -/
def State.mapJob (s : State) (n : Nat) (f : Job → Job) : State :=
  s.mapLane n fun l => { l with job := l.job.map f }

/-- An axis job taken and run. Log 22 (DESIGN CHOICE). -/
def State.takeAxis (s : State) (n a : Nat) (j : Job) : State :=
  match s.charter with
  | none => s
  | some c => match c.axis? a with
    | none => s
    | some r =>
      let x := (s.axis a).run
      let x0 := if x.holdStart then { x with en := false } else x
      let (s1, nx, n15, e) := jobRun s (s.jobCtx n j c r) x0
      match e with
      | .returned => s1.mapJob n fun j => { j with phase := .finished, base := some x, next := nx, n15 := n15 }
      | .stopped e => s1.laneStop n e
      | .running => s1.mapJob n fun j => { j with phase := .code, base := some x }

/-- An axis job begun at TAKE: its transfers are a decision cycle; under back-pressure of its lane they wait, and with them the
job, until the episode ends or the deadline stops it (R101, R393, R396). -/
def State.startAxis (s : State) (n a : Nat) (j : Job) : State :=
  let s1 := s.mapPtb Ptb.decision
  if s.ptb.holds n && !s.reduced then s1.mapJob n fun j => { j with phase := .stalled } else s1.takeAxis n a j

/-- The axis jobs that back-pressure held, once it has ended. -/
def State.resume (s : State) : State :=
  forEach (List.range 16) (fun n s => match (s.lane n).job with
    | some j =>
      if j.phase == .stalled && !s.ptb.holds n then match j.axis with
        | some a => s.takeAxis n a j
        | none => s
      else s
    | none => s) s

/-- BP_DONE: a back-pressure episode has run its CYCLES; the jobs that it held go on (R395). -/
def execBpDone (s : State) : Host.Outcome State Fault Refusal := .next (s.mapPtb Ptb.endBp).resume

/-- CLEAR_ALL: a write of 1 to PTB_CLEAR.ALL ends every perturbation; while locked it has no effect (R391, R395). -/
def execClearAll (_src : Source) (s : State) : Host.Outcome State Fault Refusal :=
  if s.unlocks s.cht.active then .next (s.mapPtb Ptb.clear).resume
  else .next (s.mapPtb fun p => { p with evt := setBit p.evt 0 })

/-- A task without AXIS_TASK taken: its entry block is entered (R147). Log 88 (DEDUCED). -/
def State.takeTask (s : State) (n : Nat) (j : Job) : State :=
  let entry := match s.teller.task? j.task with
    | some k => k.entry
    | none => 0
  match (s.blockTable n).find? (fun e => e.2 == entry) with
  | none => s.laneStop n (.fault fIllegal)
  | some (addr, _) =>
    (s.enterBlock n addr
      { ix0 := 0x2040, ix1 := 0x2040, iy0 := 0x2040, iy1 := 0x10000, n0 := 0xFFFFFFFF, n1 := 0,
        n2 := BitVec.ofNat 32 j.stamp, n3 := BitVec.ofNat 32 j.d }).mapJob n fun j => { j with phase := .code }

/-- TLR_ERR.SECOND_FLOW with its lane (R273). -/
def Teller.secondFlow (t : Teller) (n : Nat) : Teller :=
  let e := BitVec.ofNat 32 (field t.err 3 0 + n % 16 * 16)
  { t with err := setBit e 0, evt := setBit t.evt 3 }

/-- TAKE: the run handed to the lane is taken: scratch is not what it was, LFLG is cleared, and the chain runner runs an
axis job to its DONE, or enters the entry block of another task. A TAKE by lane code raises PRIV; one by a lane that
already holds a flow is refused: the lane stays in TAKE without a task, and its run no longer comes to DONE, until the stop
of R101 releases the flow (R139, R147, R151, R273). -/
def execTake (lane : Nat) (s : State) : Host.Outcome State Fault Refusal :=
  match (s.lane lane).job with
  | none => .next s
  | some j =>
    match j.phase with
    | .code => .next (s.laneStop lane (.fault fPriv))
    | .finished | .stalled => .next ((s.mapTeller fun t => t.secondFlow lane).mapLane lane fun l =>
        if l.state == .committing then l else { l with state := .waiting })
    | .handed =>
      let s1 := (s.mapLane lane fun l =>
        { l with
          ram := l.ram.filter (fun c => c.1 < 0x4000), scratch := some s.freeCount, lflg := 0, rep := [], ret := [],
          marks := [] }).drawn 16384
      .next (match j.axis with
        | some a => s1.startAxis lane a j
        | none => s1.takeTask lane j)

end Sys2Proof.Machine
end

