-- ==== Sys2Proof/Machine/Seal.lean ====
section
/-!
DEFINITION. The arithmetic of the seal (03_charter R70, R71; 17_power_up R402, R412): SHA-256 of FIPS 180-4 and the
verification of an ECDSA P-256 signature of FIPS 186-5, over byte strings packed four to a word.
-/
namespace Sys2Proof.Machine
open Sys2Proof

/-! ## Byte strings (R70) -/

/-- The byte string packed into words. -/
def bytesOf (ws : List Word) : List Byte := ws.flatMap wordBytes

/-- A byte string, most significant byte first, as a number. -/
def bytesNat (b : List Byte) : Nat := b.foldl (fun n x => n * 256 + x.toNat) 0

/-- A number as n bytes, most significant byte first. -/
def natBytes : Nat → Nat → List Byte
  | 0, _ => []
  | n + 1, v => natBytes n (v / 256) ++ [BitVec.ofNat 8 v]

/-! ## SHA-256 -/

/-- The first 64 primes. -/
def shaPrimes : List Nat :=
  [2, 3, 5, 7, 11, 13, 17, 19, 23, 29, 31, 37, 41, 43, 47, 53]
    ++ [59, 61, 67, 71, 73, 79, 83, 89, 97, 101, 103, 107, 109, 113, 127, 131]
    ++ [137, 139, 149, 151, 157, 163, 167, 173, 179, 181, 191, 193, 197, 199, 211, 223]
    ++ [227, 229, 233, 239, 241, 251, 257, 263, 269, 271, 277, 281, 283, 293, 307, 311]

/-- The greatest r below 2^n with r^e ≤ v. -/
def rootNat (e v : Nat) : Nat → Nat → Nat
  | 0, r => r
  | n + 1, r => rootNat e v n (if (r + 2 ^ n) ^ e ≤ v then r + 2 ^ n else r)

/-- The round constants: the first 32 bits of the fractions of the cube roots of the primes. -/
def shaK : List Word := shaPrimes.map fun p => BitVec.ofNat 32 (rootNat 3 (p * 2 ^ 96) 36 0)

/-- The initial hash value: the first 32 bits of the fractions of the square roots of the first eight primes. -/
def shaInit : List Word := (shaPrimes.take 8).map fun p => BitVec.ofNat 32 (rootNat 2 (p * 2 ^ 64) 36 0)

/-- A word rotated right. -/
def rotr (x : Word) (n : Nat) : Word := x.rotateRight n

/-- The message schedule: `w` holds the last sixteen words, newest first; n words are still to come. -/
def shaSchedule : Nat → List Word → List Word → List Word
  | 0, _, acc => acc.reverse
  | n + 1, w, acc =>
    let w2 := w.getD 1 0
    let w15 := w.getD 14 0
    let s1 := rotr w2 17 ^^^ rotr w2 19 ^^^ (w2 >>> 10)
    let s0 := rotr w15 7 ^^^ rotr w15 18 ^^^ (w15 >>> 3)
    let x := s1 + w.getD 6 0 + s0 + w.getD 15 0
    shaSchedule n (x :: w.take 15) (x :: acc)

/-- One round on the eight working variables. -/
def shaRound (h : List Word) (kw : Word × Word) : List Word :=
  match h with
  | [a, b, c, d, e, f, g, x] =>
    let s1 := rotr e 6 ^^^ rotr e 11 ^^^ rotr e 25
    let ch := (e &&& f) ^^^ (~~~e &&& g)
    let t1 := x + s1 + ch + kw.1 + kw.2
    let s0 := rotr a 2 ^^^ rotr a 13 ^^^ rotr a 22
    let maj := (a &&& b) ^^^ (a &&& c) ^^^ (b &&& c)
    [t1 + (s0 + maj), a, b, c, d + t1, e, f, g]
  | _ => h

/-- One block of sixteen words. -/
def shaBlock (k : List Word) (h blk : List Word) : List Word :=
  let sched := blk ++ shaSchedule 48 blk.reverse []
  List.zipWith (· + ·) h ((k.zip sched).foldl shaRound h)

/-- Four bytes as a word, most significant first. -/
def beWord (b : List Byte) : Word := BitVec.ofNat 32 (bytesNat b)

/-- A byte string cut into n blocks of sixteen words and hashed. -/
def shaBlocks (k : List Word) : Nat → List Byte → List Word → List Word
  | 0, _, h => h
  | n + 1, b, h =>
    let blk := (List.range 16).map fun i => beWord ((b.drop (4 * i)).take 4)
    shaBlocks k n (b.drop 64) (shaBlock k h blk)

/-- SHA-256 of a byte string. -/
def sha256 (b : List Byte) : List Byte :=
  let len := b.length
  let pad := (119 - len % 64) % 64
  let m := b ++ [0x80#8] ++ List.replicate pad 0 ++ natBytes 8 (8 * len)
  (shaBlocks shaK (m.length / 64) m shaInit).flatMap fun w => natBytes 4 w.toNat

/-! ## ECDSA P-256 -/

/-- The field prime of P-256. -/
def p256P : Nat := 0xffffffff00000001000000000000000000000000ffffffffffffffffffffffff
/-- The group order. -/
def p256N : Nat := 0xffffffff00000000ffffffffffffffffbce6faada7179e84f3b9cac2fc632551
/-- The coefficient b; a is −3. -/
def p256B : Nat := 0x5ac635d8aa3a93e7b3ebbd55769886bc651d06b0cc53b0f63bce3c3e27d2604b
/-- The base point. -/
def p256G : Nat × Nat :=
  (0x6b17d1f2e12c4247f8bce6e563a440f277037d812deb33a0f4a13945d898c296,
   0x4fe342e2fe1a7f9b8ee7eb4a7c0f9e162bce33576b315ececbb6406837bf51f5)

/-- x^e modulo m over the low n bits of e. -/
def powMod (m : Nat) : Nat → Nat → Nat → Nat
  | 0, _, _ => 1
  | n + 1, x, e =>
    let h := powMod m n (x * x % m) (e / 2)
    if e % 2 = 1 then h * x % m else h

/-- The inverse of x modulo the prime m. -/
def invMod (m x : Nat) : Nat := powMod m 256 (x % m) (m - 2)

/-- A point of the curve as (X, Y, Z), standing for (X / Z^2, Y / Z^3); Z = 0 is the point at infinity. -/
abbrev EcPoint := Nat × Nat × Nat

/-- The point taken with itself. -/
def ecDouble (a : EcPoint) : EcPoint :=
  match a with
  | (x, y, z) =>
    let p := p256P
    let yy := y * y % p
    let b := x * yy % p
    let m := 3 * (x + z * z % p) * (x + p - z * z % p) % p
    let x3 := (m * m + 8 * (p - b)) % p
    (x3, (m * (4 * b + p - x3) + 8 * (p - yy * yy % p)) % p, 2 * y * z % p)

/-- The sum of two points. -/
def ecAdd (a b : EcPoint) : EcPoint :=
  match a, b with
  | (x1, y1, z1), (x2, y2, z2) =>
    let p := p256P
    if z1 = 0 then b
    else if z2 = 0 then a
    else
      let za := z1 * z1 % p
      let zb := z2 * z2 % p
      let u1 := x1 * zb % p
      let s1 := y1 * (z2 * zb) % p
      let h := (x2 * za + p - u1) % p
      let r := (y2 * (z1 * za) + p - s1) % p
      if h = 0 then (if r = 0 then ecDouble a else (1, 1, 0))
      else
        let hh := h * h % p
        let hhh := h * hh % p
        let v := u1 * hh % p
        let x3 := (r * r + (p - hhh) + 2 * (p - v)) % p
        (x3, (r * (v + p - x3) + s1 * (p - hhh)) % p, z1 * z2 % p * h % p)

/-- A multiple of a point by the low n bits of k. -/
def ecMul : Nat → Nat → EcPoint → EcPoint
  | 0, _, _ => (1, 1, 0)
  | n + 1, k, q =>
    let h := ecMul n (k / 2) (ecDouble q)
    if k % 2 = 1 then ecAdd h q else h

/-- A public key lies on the curve. -/
def ecOnCurve (x y : Nat) : Bool :=
  decide (x < p256P) && decide (y < p256P) && y * y % p256P == (x * x * x + (p256P - 3) * x + p256B) % p256P

/-- (r, s) is a valid ECDSA P-256 signature, under the key (x, y), of a message of a given SHA-256 digest. -/
def ecdsaValid (x y r s : Nat) (digest : List Byte) : Bool :=
  if !ecOnCurve x y || r == 0 || s == 0 || decide (p256N ≤ r) || decide (p256N ≤ s) then false
  else
    let w := invMod p256N s
    let u1 := bytesNat digest * w % p256N
    let u2 := r * w % p256N
    let q := ecAdd (ecMul 256 u1 (p256G.1, p256G.2, 1)) (ecMul 256 u2 (x, y, 1))
    let zi := invMod p256P q.2.2
    q.2.2 != 0 && q.1 * (zi * zi) % p256P % p256N == r

end Sys2Proof.Machine
end

