-- ==== Sys2Proof/Machine/CharterFormat.lean ====
section
/-!
DEFINITION. The Charter as a stream of records and its validation (03_charter R52 to R71, R78 to R80, R456 to R459, with
the rules of other chapters that its steps name): steps 1 to 15, and the Charter that a sound stream builds.
-/
namespace Sys2Proof.Machine
open Sys2Proof

/-! ## Failures (R78, R458) -/

/-- A failed validation: CHT_ERR.CODE and CHT_ERR_OFFS. -/
structure ChtFail where
  code : Nat
  offs : Nat
  deriving DecidableEq, Repr

def eSize : Nat := 0x01
def eMagic : Nat := 0x02
def eVersion : Nat := 0x03
def eSealKey : Nat := 0x04
def eSealDigest : Nat := 0x05
def eSealSignature : Nat := 0x06
def eRecordOverrun : Nat := 0x07
def eSectionOrder : Nat := 0x08
def eUnknownRecord : Nat := 0x09
def eRecordLength : Nat := 0x0A
def eMissingSection : Nat := 0x0B
def eFieldRange : Nat := 0x0C
def eDuplicate : Nat := 0x0D
def eReference : Nat := 0x0E
def eLimit : Nat := 0x0F
def eLoad : Nat := 0x10
def ePortBudget : Nat := 0x11
def eTest : Nat := 0x12
def eSource : Nat := 0x13
def eSealTag : Nat := 0x14

/-- The least of a list of offsets. -/
def leastOf : List Nat → Option Nat
  | [] => none
  | a :: t => some (t.foldl min a)

/-- A step fails at the lowest of the offsets that fail in it. -/
def firstFail (code : Nat) (bad : List Nat) : Except ChtFail Unit :=
  match leastOf bad with
  | none => .ok ()
  | some o => .error { code := code, offs := o }

/-! ## Records (R52) -/

/-- A record of the stream: its word offset, section, type and payload. -/
structure Rec where
  offs : Nat
  sec : Nat
  typ : Nat
  pay : List Word
  deriving DecidableEq, Repr

/-- Payload word i. -/
def Rec.w (r : Rec) (i : Nat) : Word := r.pay.getD i 0
/-- Bits [hi:lo] of payload word i. -/
def Rec.f (r : Rec) (i hi lo : Nat) : Nat := field (r.w i) hi lo
/-- A record of a section and type. -/
def Rec.is (r : Rec) (sec typ : Nat) : Bool := r.sec == sec && r.typ == typ

/-- The records of the first `left` words from an offset, or the offset of one that does not end there. At most `fuel`
records. -/
def walkRecs : Nat → Nat → Nat → List Word → List Rec → Except ChtFail (List Rec)
  | 0, _, _, _, acc => .ok acc.reverse
  | _ + 1, _, 0, _, acc => .ok acc.reverse
  | _ + 1, _, _, [], acc => .ok acc.reverse
  | fuel + 1, offs, left + 1, tag :: ws, acc =>
    let n := field tag 15 0
    if left < n then .error { code := eRecordOverrun, offs := offs }
    else
      walkRecs fuel (offs + 1 + n) (left - n) (ws.drop n)
        ({ offs := offs, sec := field tag 31 24, typ := field tag 23 16, pay := ws.take n } :: acc)

/-! ## Steps 1 to 4 (R56, R57, R70, R71). Log 66 (DESIGN CHOICE). -/

def maxCharter : Nat := 2097152

/-- The seal checked in the order of R71. -/
def checkSeal (slots : List OtpSlot) (words : List Word) (s : Nat) : Except ChtFail Unit :=
  let sl := words.drop (s + 1)
  let part := fun (i n : Nat) => bytesOf ((sl.drop i).take n)
  let slot := slots.getD (field (sl.getD 0 0) 1 0) { st := 0, hash := [] }
  let q := part 1 16
  let covered := sha256 (bytesOf (words.take s))
  if slot.st ≠ 1 ∨ slot.hash ≠ sha256 q then .error { code := eSealKey, offs := s }
  else if covered ≠ part 17 8 then .error { code := eSealDigest, offs := s }
  else if ecdsaValid (bytesNat (part 1 8)) (bytesNat (part 9 8)) (bytesNat (part 25 8)) (bytesNat (part 33 8)) covered then
    .ok ()
  else .error { code := eSealSignature, offs := s }

/-- Steps 1 to 4: length, header, version and seal; the offset of the seal tag. -/
def checkEnvelope (slots : List OtpSlot) (words : List Word) : Except ChtFail Nat :=
  let n := words.length
  let w := fun i => words.getD i 0
  if maxCharter < n ∨ n ≠ (w 3).toNat then .error { code := eSize, offs := 0 }
  else if w 0 ≠ 0x01010008 ∨ w 1 ≠ 0x54524843 then .error { code := eMagic, offs := 0 }
  else if w 2 ≠ 0x00010000 then .error { code := eVersion, offs := 0 }
  else if n < 42 ∨ w (n - 42) ≠ 0xFF010029 then .error { code := eSealTag, offs := 0 }
  else match checkSeal slots words (n - 42) with
    | .ok _ => .ok (n - 42)
    | .error e => .error e

/-! ## Step 6 (R53) -/

/-- What the order check carries: the last section, the CHAIN record with BLOCK records still owed, and the offsets that
break the rule. -/
structure OrderSt where
  prev : Nat
  first : Bool
  chain : Nat
  owed : Nat
  bad : List Nat

/-- One record in the order check. -/
def OrderSt.next (st : OrderSt) (r : Rec) : OrderSt :=
  let b1 := r.sec < st.prev || ((r.sec == 1) != st.first)
  let block := r.is 5 2
  let b2 := st.owed != 0 && !block
  let b3 := block && st.owed == 0
  { prev := r.sec, first := false
    chain := if r.is 5 1 then r.offs else st.chain
    owed := if r.is 5 1 then r.f 0 13 8 else if block then st.owed - 1 else 0
    bad := st.bad ++ (if b2 then [st.chain] else []) ++ (if b1 || b3 then [r.offs] else []) }

/-- The records before the seal keep R53; a record of section 0xFF there is a second seal. -/
def checkOrder (rs : List Rec) : Except ChtFail Unit :=
  let st := rs.foldl OrderSt.next { prev := 0, first := true, chain := 0, owed := 0, bad := [] }
  let seals := (rs.filter fun r => r.sec == 0xFF).map fun r => r.offs
  firstFail eSectionOrder (st.bad ++ seals ++ if st.owed = 0 then [] else [st.chain])

/-! ## Step 7 (R55, R63, R67, R171, R185, R223) -/

/-- Length of a record of the table *Structure records* that has one length. -/
def fixedLen (sec typ : Nat) : Option Nat :=
  match sec, typ with
  | 1, 1 => some 8
  | 2, 1 => some 2
  | 3, 1 => some 3
  | 3, 2 => some 6
  | 4, 1 => some 5
  | 5, 1 => some 1
  | 6, 1 => some 5
  | 6, 2 => some 2
  | 7, 1 => some 2
  | 7, 2 => some 2
  | 8, 1 => some 2
  | 8, 2 => some 2
  | 9, 1 => some 3
  | 10, 1 => some 4
  | 12, 1 => some 1
  | _, _ => none

/-- A section and type that the chapter defines. -/
def knownRec (sec typ : Nat) : Bool :=
  (fixedLen sec typ).isSome || (sec == 5 && typ == 2) || (sec == 7 && typ == 3) || (sec == 11 && typ == 1)

/-- Shape word and length of a block of the manual; TABLE and NOTCH carry their lengths apart (R171, R185, R223). -/
def blockForm (id : Nat) : Option (Word × Nat) :=
  match id with
  | 0x0110 => some (0x0006, 10)
  | 0x0111 => some (0x0206, 21)
  | 0x0112 => some (0x0003, 9)
  | 0x0120 => some (0x0001, 9)
  | 0x0121 => some (0x0101, 9)
  | 0x0122 => some (0x0001, 11)
  | 0x0123 => some (0x0201, 13)
  | 0x0124 => some (0x0101, 8)
  | 0x0130 => some (0x0001, 0)
  | 0x0140 => some (0x0102, 20)
  | 0x0200 => some (0x0201, 0)
  | 0x0210 => some (0x0101, 9)
  | 0x0211 => some (0x0001, 5)
  | _ => none

/-- lo ≤ v ≤ hi. -/
def inRange (v lo hi : Nat) : Bool := decide (lo ≤ v) && decide (v ≤ hi)

/-- The length of a BLOCK record. Where the count N that TABLE or NOTCH holds is outside its range, any length of the range
its table gives stands here, and the field fails at step 9. -/
def blockLenOk (r : Rec) : Bool :=
  let n := r.pay.length
  if n < 3 ∨ 1024 < n then false
  else match r.f 0 15 0 with
    | 0x0130 =>
      let k := (r.w 7).toNat
      decide (14 ≤ n) && decide (n ≤ 42) && (!inRange k 2 16 || n == 10 + 2 * k)
    | 0x0200 =>
      let k := (r.w 12).toNat
      decide (13 ≤ n) && decide (n ≤ 47) && (k != 0 || n == 13) && (!inRange k 2 16 || n == 15 + 2 * k)
    | id => match blockForm id with
      | some (_, len) => n == len
      | none => true

/-- The length of a record of a known type. -/
def recLenOk (r : Rec) : Bool :=
  match fixedLen r.sec r.typ with
  | some n => r.pay.length == n
  | none =>
    if r.sec = 5 then blockLenOk r
    else if r.sec = 7 then decide (3 ≤ r.pay.length) && r.pay.length == r.f 1 15 0 + 2
    else r.pay.length == 3 + 2 * r.f 1 15 0

/-- Step 7: the first record that is unknown or of a wrong length. -/
def checkKinds : List Rec → Except ChtFail Unit
  | [] => .ok ()
  | r :: t =>
    if !knownRec r.sec r.typ then .error { code := eUnknownRecord, offs := r.offs }
    else if !recLenOk r then .error { code := eRecordLength, offs := r.offs }
    else checkKinds t

/-! ## Step 8 (R54) -/

/-- Mandatory sections are present. -/
def checkSections (pair : Bool) (rs : List Rec) : Except ChtFail Unit :=
  let has := fun n => rs.any fun r => r.sec == n
  if has 2 && has 6 && (!pair || has 9) then .ok () else .error { code := eMissingSection, offs := 0 }

/-! ## Step 9: fields (R55, R58, R59, R62, R63, R65, R67, R459) -/

/-- Bits of a payload word that carry fields; every other bit is reserved. -/
def fieldBits (sec typ i : Nat) : Nat :=
  match sec, typ, i with
  | 1, 1, 3 => 0x7
  | 1, 1, 7 => 0xFFFF
  | 2, 1, 0 => 0x3
  | 2, 1, 1 => 0xF
  | 3, 1, 0 => 0x11F
  | 3, 2, 0 => 0x1F1F01FF
  | 3, 2, 1 => 0x1333
  | 4, 1, 0 => 0x003733FF
  | 4, 1, 4 => 0xFF03
  | 5, 1, 0 => 0x3FFF
  | 5, 2, 0 => 0xFFFFFF
  | 5, 2, 1 => 0xFFFF
  | 6, 1, 0 => 0x0FFFF7FF
  | 6, 1, 2 => 0xFFFF0001
  | 6, 1, 4 => 0x80000003
  | 6, 2, 0 => 0xFFFFFF
  | 6, 2, 1 => 0x1F07FF
  | 7, 2, 0 => 0x1FFFFFF
  | 7, 2, 1 => 0x1
  | 7, 3, 0 => 0x1FFFFFF
  | 7, 3, 1 => 0xFFFF
  | 8, 1, 0 => 0x31F
  | 8, 1, 1 => 0xFFFF
  | 8, 2, 0 => 0x1FFFF
  | 8, 2, 1 => 0xFFFF
  | 9, 1, 0 => 0x7F
  | 9, 1, 2 => 0x1
  | 10, 1, 0 => 0x1
  | 10, 1, 1 => 0x3FF
  | 10, 1, 3 => 0xFFF
  | 11, 1, 0 => 0xFFFF
  | 11, 1, 1 => 0xFFFF
  | _, _, _ => 0xFFFFFFFF

/-- Reserved bits of the first eight payload words are zero. Log 60 (DEDUCED). -/
def reservedOk (r : Rec) : Bool :=
  (List.range (min 8 r.pay.length)).all fun i => (r.w i).toNat &&& fieldBits r.sec r.typ i == (r.w i).toNat

/-- What step 9 knows of the Charter as a whole. -/
structure FieldCtx where
  base : Nat
  used : Word
  dramMib : Nat
  axes : List (Nat × Nat)

/-- A rate code whose bit is set in RATES_USED. -/
def FieldCtx.rateOk (c : FieldCtx) (rate : Nat) : Bool := bit c.used rate

/-- A local target, primary or load word, or a station one. -/
def feedbackWordOk (w : Word) : Bool :=
  if bit w 31 then w.toNat &&& 0x8000000F == w.toNat else w.toNat &&& 0x0000F000 == w.toNat

/-- An AXIS record (R62, R63, R221). -/
def axisFieldsOk (c : FieldCtx) (r : Rec) : Bool :=
  let mode := r.f 0 9 8
  let t := r.w 1
  let ld := r.w 3
  c.rateOk (r.f 0 13 12) && decide (r.f 0 18 16 < rateDiv c.base (r.f 0 13 12)) && decide (mode ≤ 2)
    && (if bit t 31 then mode == 2 && t.toNat &&& 0x8000000F == t.toNat else t.toNat &&& 0x0000F1FF == t.toNat)
    && (if mode = 2 then r.w 2 == 0 else feedbackWordOk (r.w 2))
    && (if bit ld 30 then
          (if bit ld 31 then ld.toNat &&& 0xC000000F == ld.toNat else ld.toNat &&& 0x4000F1FF == ld.toNat)
        else ld == 0)
    && decide (r.f 4 1 0 ≤ 2) && decide (1 ≤ r.f 4 15 8)

/-- A BIND record: kind and index of the table *Event sources* (R263). -/
def bindFieldsOk (r : Rec) : Bool :=
  let i := r.f 0 23 8
  match r.f 0 7 0 with
  | 0x01 => i == 0
  | 0x02 => decide (i ≤ 32)
  | 0x03 => decide (i ≤ 271)
  | 0x04 => decide (i ≤ 39)
  | 0x05 => decide (i ≤ 39)
  | 0x06 => decide (i ≤ 15)
  | 0x07 => decide (i ≤ 1)
  | 0x08 => decide (i ≤ 31)
  | 0x09 => decide (i ≤ 31)
  | 0x0A => decide (1 ≤ i)
  | 0x0B => decide (i ≤ 2047)
  | _ => false

/-- Identifiers of a run are valid, not reserved and outside class 0x03 (R459). -/
def runIdsOk (first n : Nat) : Bool :=
  decide (first + n ≤ 2 ^ 25) &&
    (List.range ((first + n - 1) / 1024 - first / 1024 + 1)).all fun g =>
      let id := (first / 1024 + g) * 1024
      idClass id != 3 && !idReserved id

/-- A LAYOUT record: a multiple of 256 MiB, above the banks, within the DRAM fitted (R63, R290). -/
def layoutOk (dramMib : Nat) (r : Rec) : Bool :=
  let a := (r.w 0).toNat + (r.w 1).toNat * 2 ^ 32
  a % 0x10000000 == 0 && decide (0x810000000 ≤ a) && decide (a + 0x10000000 ≤ 0x800000000 + dramMib * 2 ^ 20)

/-! ### Block parameters (R59, R173, R189, R192, R193, R223) -/

/-- A BF vector of n at word w of a BLOCK record is normalised (R59). -/
def Rec.bfOk (r : Rec) (w n : Nat) : Bool :=
  let ms := ((r.pay.drop w).take n).map fun m => m.toInt.natAbs
  let e := r.w (w + n)
  let top := ms.foldl max 0
  e.toNat < 256 && (if top = 0 then e == 0 else decide (2 ^ 30 ≤ top) && decide (top ≤ 2 ^ 31) &&
    ((r.pay.drop w).take n).all fun m => decide (m.toInt.natAbs < 2 ^ 31))

/-- The value of a BF scalar at word w. -/
def Rec.bf (r : Rec) (w : Nat) : Fl := bfAt r.pay w

/-- x lies within lo to hi. -/
def Fl.within (x lo hi : Fl) : Bool := !x.lt lo && !hi.lt x

/-- A BF scalar at word w, normalised and within lo to hi. -/
def Rec.bfIn (r : Rec) (w : Nat) (lo hi : Fl) : Bool := r.bfOk w 1 && (r.bf w).within lo hi

/-- A power of two. -/
def pow2 (k : Int) : Fl := (Fl.ofInt 1).shift k
/-- Zero to a power of two. -/
def Rec.bfTo (r : Rec) (w : Nat) (k : Int) : Bool := r.bfIn w Fl.zero (pow2 k)

/-- Values rise strictly. -/
def rising : List Fl → Bool
  | x :: y :: t => x.lt y && rising (y :: t)
  | _ => true

/-- Non-zero values rise strictly, and a 0 is followed only by 0 (R223). -/
def upsOk : List Nat → Bool
  | x :: y :: t => (y == 0 || (x != 0 && decide (x < y))) && upsOk (y :: t)
  | _ => true

/-- TA of OBS and DCOMP; the ends of its range as R60 encodes them. -/
def Rec.taOk (r : Rec) (w : Nat) : Bool := r.bfIn w (Fl.ofRatio 15625 1000000000) (Fl.ofRatio 125 1000000)

/-- A vector pair at a word: the first rises strictly. -/
def Rec.pairOk (r : Rec) (w n : Nat) : Bool := r.bfOk w n && r.bfOk (w + n + 1) n && rising (bfVec r.pay w n)

/-- Parameters of a block of the manual, at an axis rate in Hz. -/
def paramsOk (r : Rec) (rateHz : Nat) : Bool :=
  let u := fun (w lo hi : Nat) => inRange (r.w w).toNat lo hi
  let fmax := Fl.ofRatio (9 * rateHz) 20
  match r.f 0 15 0 with
  | 0x0110 => r.bfIn 3 (pow2 (-20)) (pow2 (-4)) && r.bfIn 5 (pow2 (-20)) (pow2 (-4)) && r.bfTo 7 (-8) && u 9 0 1
  | 0x0111 =>
    r.bfTo 3 6 && r.bfTo 5 2 && r.bfTo 7 6 && r.bfTo 9 2 && r.bfTo 11 4 && r.bfTo 13 4 && r.bfTo 15 2
      && r.bfIn 17 (Fl.ofInt (-4)) (Fl.ofInt 4) && r.bfIn 19 (pow2 (-1)) (pow2 0)
  | 0x0112 =>
    r.bfTo 3 3 && r.bfTo 5 (-1) && r.bfIn 7 (pow2 (-1)) (pow2 0) && (r.bf 5).lt (r.bf 7)
  | 0x0120 => r.bfTo 3 16 && r.bfTo 5 1 && r.bfIn 7 (pow2 0) (pow2 40)
  | 0x0121 => r.bfTo 3 0 && r.bfTo 5 0 && r.bfTo 7 3
  | 0x0122 => r.bfTo 3 0 && r.bfTo 5 0 && r.bfTo 7 3 && r.bfTo 9 32
  | 0x0123 => r.taOk 3 && r.bfTo 5 40 && r.bfTo 7 0 && r.bfTo 9 24 && r.bfTo 11 24
  | 0x0124 => u 3 0 1 && r.taOk 4 && r.bfTo 6 0
  | 0x0130 =>
    let n := (r.w 7).toNat
    u 3 0 (2 ^ 25 - 1) && u 4 0 254 && r.bfOk 5 1 && inRange n 2 16 && r.pairOk 8 n && r.bfOk (9 + n) n
  | 0x0140 =>
    u 3 0 8 && u 4 20 100000 && u 5 20 100000 && u 6 0 500
      && upsOk ((List.range 8).map fun i => (r.w (7 + i)).toNat) && r.bfTo 15 1 && r.bfTo 17 1 && u 19 0 60000
  | 0x0200 =>
    let n := (r.w 12).toNat
    let fixed := r.w 3 == 0
    u 3 0 (2 ^ 25 - 1) && r.bfOk 4 1 && r.bfOk 6 1 && (!fixed || (r.bf 6).within (Fl.ofInt 20) fmax)
      && r.bfIn 8 Fl.zero (Fl.ofRatio (2 ^ 20 - 1) (2 ^ 20)) && r.bfTo 10 0
      && (if fixed then n == 0
          else inRange n 2 16 && r.pairOk 13 n
            && (bfVec r.pay (14 + n) n).all fun x => x.within (Fl.ofInt 20) fmax)
  | 0x0210 => r.bfOk 3 1 && r.bfOk 5 1 && (r.bf 3).lt (r.bf 5) && r.bfTo 7 40
  | 0x0211 => r.bfTo 3 3
  | _ => true

/-- A BLOCK record standing at an index of the chain of an axis: ID, sources, shape and parameters. -/
def blockFieldsOk (c : FieldCtx) (axis idx : Nat) (r : Rec) : Bool :=
  let srcOk := fun v => v == 0xFF || (decide (v ≤ 31) && decide (v < idx))
  let rate := match c.axes.find? fun a => a.1 == axis with
    | some a => a.2
    | none => c.base
  let shape := r.w 2
  r.f 0 15 0 != 0 && srcOk (r.f 1 7 0) && srcOk (r.f 1 15 8)
    && (match blockForm (r.f 0 15 0) with
        | some (sh, _) => shape == sh && paramsOk r (64000 / 2 ^ rate)
        | none => decide (1 ≤ field shape 7 0) && field shape 31 16 == 0)

/-- The fields of a record that stands on its own. Log 60 (DEDUCED). -/
def fieldsOk (c : FieldCtx) (r : Rec) : Bool :=
  let w := fun i => (r.w i).toNat
  reservedOk r &&
  match r.sec, r.typ with
  | 2, _ =>
    let b := r.f 0 1 0
    bit (r.w 1) b && w 1 % 2 ^ b == 0
  | 3, 2 => decide (1 ≤ r.f 0 28 24) && decide (r.f 0 28 24 ≤ 16) && decide (r.f 1 1 0 ≤ 2) && decide (r.f 1 5 4 ≤ 1)
      && decide (r.f 1 9 8 ≤ 2)
  | 4, _ => axisFieldsOk c r
  | 5, 1 => inRange (r.f 0 13 8) 1 32
  | 6, 1 =>
    let ax := bit (r.w 4) 31
    (if ax then r.f 2 31 16 == 0 else r.f 2 31 16 != 0) && c.rateOk (r.f 4 1 0) && w 1 != 0
  | 6, 2 => bindFieldsOk r
  | 7, 1 => layoutOk c.dramMib r
  | 7, 3 => runIdsOk (w 0) (r.f 1 15 0)
  | 8, 1 =>
    let cls := r.f 0 9 8
    decide (r.f 0 4 0 ≤ 23) && !(cls == 0 && decide (16 ≤ r.f 0 4 0)) && (if cls = 1 then w 1 != 0 else w 1 == 0)
  | 8, 2 => inRange (w 0) 256 65536 && inRange (w 1) 0 4096
  | 9, _ => inRange (w 0) 2 64 && inRange (w 1) 0 3600000
  | 10, _ => inRange (w 1) 750 850 && inRange (w 2) 0 500 && inRange (w 3) 7 1000
  | 11, _ => w 0 != 0 && inRange (w 1) 1 16384
  | _, _ => true

/-- The chains of the stream: each CHAIN record with its BLOCK records (R53). -/
def groupChains : List Rec → List (Rec × List Rec)
  | [] => []
  | r :: t =>
    if r.is 5 1 then (r, t.take (r.f 0 13 8)) :: groupChains t
    else groupChains t

/-- Bytes of the stage and the parameters of a block in the axis page (R146). -/
def blockBytes (r : Rec) : Nat := 4 * (stageWords (r.w 2) + r.pay.length - 3)

/-- The offsets of a chain that fail step 9: its blocks, a fifth NOTCH, and the CHAIN record where the page cannot hold
its stages and parameters (R146, R185). -/
def chainFieldFails (c : FieldCtx) (ch : Rec × List Rec) : List Nat :=
  let axis := ch.1.f 0 7 0
  let blocks := (indexed ch.2).filterMap fun p => if blockFieldsOk c axis p.1 p.2 then none else some p.2.offs
  let notches := ((ch.2.filter fun r => r.f 0 15 0 == 0x0200).drop 4).map fun r => r.offs
  let fits := (ch.2.foldl (fun n r => n + blockBytes r) 0) ≤ 3328
  blocks ++ notches ++ if fits then [] else [ch.1.offs]

/-- Step 9. -/
def checkFields (dramMib : Nat) (rs : List Rec) (last : Rec) : Except ChtFail Unit :=
  let rates := rs.find? fun r => r.is 2 1
  let ctx : FieldCtx :=
    { base := match rates with | some r => r.f 0 1 0 | none => 0
      used := match rates with | some r => r.w 1 | none => 0
      dramMib := dramMib
      axes := (rs.filter fun r => r.is 4 1).map fun r => (r.f 0 7 0, r.f 0 13 12) }
  let own := (rs.filter fun r => !fieldsOk ctx r).map fun r => r.offs
  let chains := (groupChains rs).flatMap (chainFieldFails ctx)
  let sealBad := if (last.w 0).toNat < 4 then [] else [last.offs]
  firstFail eFieldRange (own ++ chains ++ sealBad)

/-! ## Step 10 (R457) -/

/-- What a record defines that may be defined once, as numbers that tell the kinds apart. -/
def onceKeys (r : Rec) : List (Nat × Nat) :=
  match r.sec, r.typ with
  | 2, _ => [(1, 0)]
  | 3, 1 => [(2, r.f 0 4 0)]
  | 3, 2 => [(3, r.f 0 8 0), (4, r.f 0 20 16 * 32 + r.f 0 28 24)]
  | 4, _ => [(5, r.f 0 7 0)]
  | 5, 1 => [(6, r.f 0 7 0)]
  | 6, 1 => (7, r.f 0 10 0) :: if bit (r.w 4) 31 then [(8, r.f 0 27 16)] else []
  | 7, 1 => [(9, 0)]
  | 8, 1 => [(10, r.f 0 4 0)]
  | 8, 2 => [(11, 0)]
  | 9, _ => [(12, 0)]
  | 10, _ => [(13, 0)]
  | 11, _ => [(14, r.f 0 15 0)]
  | 12, _ => [(15, 0)]
  | _, _ => []

/-- The offsets of records that define again what an earlier one defines. -/
def dupOffs : List (Nat × Nat) → List Rec → List Nat
  | _, [] => []
  | seen, r :: t =>
    let ks := onceKeys r
    (if ks.any fun k => seen.contains k then [r.offs] else []) ++ dupOffs (ks ++ seen) t

/-! ## The Charter of a sound stream -/

/-- The BLOCK record. -/
def blockOf (r : Rec) : BlockRec :=
  { id := r.f 0 15 0, inst := r.f 0 23 16, mainSrc := r.f 1 7 0, auxSrc := r.f 1 15 8, params := r.pay.drop 2 }

/-- Pairs of words as 64-bit instruction words, low word first (R67). -/
def pairWords : List Word → List Word64
  | lo :: hi :: t => (hi ++ lo) :: pairWords t
  | _ => []

/-- The records of a section and type. -/
def recsOf (rs : List Rec) (sec typ : Nat) : List Rec := rs.filter fun r => r.is sec typ

/-- The Charter that the records build; a missing optional section takes the defaults of the table *Structure fields*. -/
def buildCharter (words : List Word) (s : Nat) (rs : List Rec) : Charter :=
  let one := fun (sec typ i : Nat) (d : Nat) => match (recsOf rs sec typ).head? with
    | some r => (r.w i).toNat
    | none => d
  let h := rs.headD { offs := 0, sec := 1, typ := 1, pay := [] }
  { derateWaive := bit (h.w 3) 0, test := bit (h.w 3) 1, pair := bit (h.w 3) 2, charterId := h.w 5 ++ h.w 4
    digest := (words.drop (s + 18)).take 8, keySlot := field (words.getD (s + 1) 0) 1 0
    baseRate := one 2 1 0 0 % 4, ratesUsed := one 2 1 1 0
    ports := (recsOf rs 3 1).map fun r =>
      { port := r.f 0 4 0, medium := r.f 0 8 8, returnDue := (r.w 1).toNat, issueLead := (r.w 2).toNat }
    slots := (recsOf rs 3 2).map fun r =>
      { station := r.f 0 8 0, port := r.f 0 20 16, pos := r.f 0 28 24, matchKind := r.f 1 1 0, rejoin := r.f 1 5 4,
        policy := r.f 1 9 8, io := bit (r.w 1) 12, vendor := r.w 2, model := r.w 3, serial := r.w 5 ++ r.w 4 }
    axes := (recsOf rs 4 1).map fun r =>
      { axis := r.f 0 7 0, mode := r.f 0 9 8, rate := r.f 0 13 12, phase := r.f 0 18 16, source := r.f 0 21 20,
        target := r.w 1, primary := r.w 2, loadFb := r.w 3, reaction := r.f 4 1 0, overrunLimit := r.f 4 15 8 }
    chains := (groupChains rs).map fun c => { axis := c.1.f 0 7 0, blocks := c.2.map blockOf }
    tasks := (recsOf rs 6 1).map fun r =>
      { task := r.f 0 10 0, prio := r.f 0 15 12, flow := r.f 0 27 16, mask := r.w 1, all := bit (r.w 2) 0,
        entry := r.f 2 31 16, cost := (r.w 3).toNat, rate := r.f 4 1 0, axisTask := bit (r.w 4) 31 }
    binds := (recsOf rs 6 2).map fun r =>
      { kind := r.f 0 7 0, index := r.f 0 23 8, task := r.f 1 10 0, bit := r.f 1 20 16 }
    layout := (recsOf rs 7 1).head?.map fun r => (r.w 0).toNat + (r.w 1).toNat * 2 ^ 32
    pins := (recsOf rs 7 2).map fun r => { first := r.w 0, group := bit (r.w 1) 0 }
    inits := (recsOf rs 7 3).map fun r => { first := r.w 0, values := r.pay.drop 2 }
    classes := (recsOf rs 8 1).map fun r => { req := r.f 0 4 0, cls := r.f 0 9 8, allowance := (r.w 1).toNat }
    windowLen := one 8 2 0 4096, urgentBeats := one 8 2 1 64
    pairRec := (recsOf rs 9 1).head?.map fun r =>
      { lease := (r.w 0).toNat, settleMs := (r.w 1).toNat, inhibit := bit (r.w 2) 0 }
    ageing :=
      { permit := one 10 1 0 1 == 1, vcoreMax := one 10 1 1 850, reservePs := one 10 1 2 60, warnDays := one 10 1 3 180 }
    codes := (recsOf rs 11 1).map fun r => { id := r.f 0 15 0, cost := (r.w 2).toNat, code := pairWords (r.pay.drop 3) }
    testAuth := (recsOf rs 12 1).head?.map fun r => r.w 0 }

/-! ## Step 11 (R456, R64, R67, R145, R172, R186, R260) -/

/-- Sources of a block: whether MAIN_SRC and AUX_SRC may be 0xFF, may be a block, and the output elements a source block
must have (R172, R186). -/
structure SrcRule where
  mainFF : Bool
  mainBlk : Bool
  mainEls : Nat
  auxFF : Bool
  auxBlk : Bool
  auxEls : Nat

/-- The rule of a block of the manual. -/
def srcRule (r : Rec) : Option SrcRule :=
  let rule := fun (a b : Bool) (n : Nat) (c d : Bool) (m : Nat) =>
    some ({ mainFF := a, mainBlk := b, mainEls := n, auxFF := c, auxBlk := d, auxEls := m } : SrcRule)
  match r.f 0 15 0 with
  | 0x0110 => rule true false 0 true false 0
  | 0x0111 => rule false true 1 false true 6
  | 0x0112 => rule false true 6 true false 0
  | 0x0120 => rule true true 1 true true 1
  | 0x0121 => rule true true 1 true true 1
  | 0x0122 => rule false true 1 true false 0
  | 0x0123 => rule true false 0 true true 1
  | 0x0124 => rule true false 0 true false 0
  | 0x0130 => rule (r.w 3 != 0) true ((r.w 4).toNat + 1) true false 0
  | 0x0140 => rule true false 0 true false 0
  | 0x0200 => rule false true 1 true false 0
  | 0x0210 => rule false true 1 true false 0
  | 0x0211 => rule false true 1 true true 2
  | _ => none

/-- One source of a block in its chain. -/
def sourceOk (blocks : List Rec) (v : Nat) (ff blk : Bool) (els : Nat) : Bool :=
  if v = 0xFF then ff
  else blk && match blocks[v]? with
    | some b => decide (els ≤ field (b.w 2) 7 0)
    | none => false

/-- The sources of a block. -/
def sourcesOk (blocks : List Rec) (r : Rec) : Bool :=
  match srcRule r with
  | none => true
  | some k => sourceOk blocks (r.f 1 7 0) k.mainFF k.mainBlk k.mainEls
      && sourceOk blocks (r.f 1 15 8) k.auxFF k.auxBlk k.auxEls

/-- The block IDs that the CALLB instructions of a CODE record name (R145): format C, OP 0x02. -/
def callbIds (r : Rec) : List Nat :=
  (pairWords (r.pay.drop 3)).filterMap fun w => if field w 63 56 = 0x82 then some (field w 44 29) else none

/-- The offsets of records that hold a reference that does not resolve. -/
def refFails (rs : List Rec) (c : Charter) : List Nat :=
  let code := fun (id : Nat) => c.codes.any fun k => k.id == id
  let axisDef := fun (a : Nat) => (c.axis? a).isSome
  let one := fun (r : Rec) => match r.sec, r.typ with
    | 3, 2 => (c.port? (r.f 0 20 16)).isSome
    | 4, _ =>
      let a := r.f 0 7 0
      (isLocal (r.w 1) || (c.slot? (r.f 1 8 0)).isSome)
        && (!bit (r.w 3) 30 || isLocal (r.w 3) || (c.slot? (r.f 3 8 0)).isSome)
        && (c.chain? a).isSome && (c.axisTask? a).isSome
    | 5, 1 => axisDef (r.f 0 7 0)
    | 5, _ => code (r.f 0 15 0)
    | 6, 1 =>
      if bit (r.w 4) 31 then match c.axis? (r.f 0 27 16) with
        | some a => a.rate == r.f 4 1 0
        | none => false
      else decide (256 ≤ r.f 0 27 16) && code (r.f 2 31 16)
    | 6, _ => c.tasks.any fun t => t.task == r.f 1 10 0
    | 11, _ => (callbIds r).all code
    | _, _ => true
  let chains := (groupChains rs).flatMap fun ch =>
    (ch.2.filter fun r => !sourcesOk ch.2 r).map fun r => r.offs
  (rs.filter fun r => !one r).map (fun r => r.offs) ++ chains

/-! ## Step 12 (R21, R22, R66, R68, R263, R276) -/

/-- Bytes of code RAM that a CODE record takes: N × 8, rounded up to 128 (R144). -/
def codeBytes (n : Nat) : Nat := (n * 8 + 127) / 128 * 128

/-- Code bytes of a list of blocks. -/
def codeTotal (l : List CodeRec) : Nat := l.foldl (fun n k => n + codeBytes k.code.length) 0

/-- The groups that pins name, whole classes and single groups, each entry counted once. Log 61 (DEDUCED). -/
def pinRanges (pins : List PinRec) : List (Nat × Nat) :=
  let classes := ((pins.filter fun p => !p.group).map fun p => idClass p.first.toNat).eraseDups
  let groups := ((pins.filter fun p => p.group).map fun p => p.first.toNat / 1024).eraseDups
  (classes.map fun c => (c * 2 ^ 20, 2 ^ 20))
    ++ (groups.filter fun g => !classes.contains (g / 1024)).map fun g => (g * 1024, 1024)

/-- The offsets at which a running count over a stream first goes over a limit, and all after it. -/
def overLimit (limit : Nat) (size : List Rec → Nat) : List Rec → List Rec → List Nat
  | _, [] => []
  | seen, r :: t => (if limit < size (seen ++ [r]) then [r.offs] else []) ++ overLimit limit size (seen ++ [r]) t

/-- The records of a list past the first n of them. -/
def beyond (n : Nat) (l : List Rec) : List Nat := (l.drop n).map fun r => r.offs

/-- Port of the station of an axis, where it has one. -/
def axisPort (c : Charter) (target : Word) : Option Nat :=
  if isLocal target then none else (c.slot? (field target 8 0)).map fun s => s.port

/-- R22: the primary comes from the station of the target, or from a local port for a local target; a load station stands on
the port of the target. -/
def feedbackPlaceOk (c : Charter) (r : Rec) : Bool :=
  (r.f 0 9 8 == 2 || isLocal (r.w 2) == isLocal (r.w 1))
    && (!bit (r.w 3) 30 || isLocal (r.w 3)
        || (!isLocal (r.w 1) && (c.slot? (r.f 3 8 0)).map (fun s => s.port) == axisPort c (r.w 1)))

/-- The offsets that take a count over its limit. -/
def limitFails (rs : List Rec) (c : Charter) : List Nat :=
  let slots := recsOf rs 3 2
  let axes := recsOf rs 4 1
  let binds := recsOf rs 6 2
  let perPort := (List.range 32).flatMap fun p =>
    beyond 16 (slots.filter fun r => r.f 0 20 16 == p) ++ beyond 32 (axes.filter fun r => axisPort c (r.w 1) == some p)
  let pinSize := fun (l : List Rec) =>
    (pinRanges (l.map fun r => { first := r.w 0, group := bit (r.w 1) 0 })).foldl (fun n p => n + p.2) 0
  let codeSize := fun (l : List Rec) => l.foldl (fun n r => n + codeBytes (r.f 1 15 0)) 0
  perPort ++ beyond 512 slots ++ beyond 256 axes
    ++ ((axes.filter fun r => !feedbackPlaceOk c r).map fun r => r.offs)
    ++ overLimit 1572864 pinSize [] (recsOf rs 7 2) ++ overLimit 131072 codeSize [] (recsOf rs 11 1)
    ++ beyond 8192 binds ++ beyond 1024 (binds.filter fun r => r.f 0 7 0 == 0x0A)

/-! ## Step 14: lane load (R79, R80, R150) -/

/-- Base cost of a mode. -/
def baseCost (mode : Nat) : Nat :=
  match mode with
  | 0 => 900
  | 1 => 420
  | _ => 260

/-- Standard blocks of a mode, one instance of each covered by the base cost. Log 25 (DEDUCED). -/
def standardBlocks (mode : Nat) : List Nat :=
  match mode with
  | 0 => [0x0120, 0x0121, 0x0110, 0x0111, 0x0112]
  | 1 => [0x0120, 0x0121]
  | _ => [0x0140]

/-- Cost of a block instance when added. -/
def Charter.blockCost (c : Charter) (b : BlockRec) : Nat :=
  match b.id with
  | 0x0110 => 100
  | 0x0111 => 196
  | 0x0112 => 162
  | 0x0120 => 40
  | 0x0121 => 72
  | 0x0122 => 30
  | 0x0123 => 120
  | 0x0124 => 48
  | 0x0130 => if b.params.getD 1 0 = 0 then 64 else 124
  | 0x0140 => 24
  | 0x0200 => 40
  | 0x0210 => 32
  | 0x0211 => 56
  | id => match c.codes.find? fun k => k.id == id with
    | some k => k.cost
    | none => 0

/-- Added costs of a chain: `free` are the standard blocks not yet met. -/
def Charter.chainCost (c : Charter) (free : List Nat) : List BlockRec → Nat
  | [] => 0
  | b :: t =>
    if free.contains b.id then c.chainCost (free.erase b.id) t else c.blockCost b + c.chainCost free t

/-- Cost per update of an axis. -/
def Charter.axisCost (c : Charter) (r : AxisRec) : Nat :=
  baseCost r.mode + match c.chain? r.axis with
    | some ch => c.chainCost (standardBlocks r.mode) ch.blocks
    | none => 0

/-- Hertz of a rate code. -/
def rateHz (code : Nat) : Nat := 64000 / 2 ^ code

/-- The planned lane load, lane cycles per second. -/
def Charter.load (c : Charter) : Nat :=
  c.axes.foldl (fun n r => n + c.axisCost r * rateHz r.rate) 0
    + (c.tasks.filter fun t => !t.axisTask).foldl (fun n t => n + t.cost * rateHz t.rate) 0

/-- Derate-safe: at most 80 % of 16 × 833.3 MHz (R80). -/
def Charter.derateSafe (c : Charter) : Bool := decide (c.load * 3 ≤ 32000000000)

/-- Accepted under R80. -/
def Charter.loadOk (c : Charter) : Bool := c.derateSafe || (c.derateWaive && decide (c.load ≤ 12800000000))

/-- STAGED_LOAD: 0.1 % of derated capacity, 40/3 × 10^9 lane cycles per second, rounded down. Log 103 (DESIGN CHOICE). -/
def Charter.loadPermille (c : Charter) : Nat := c.load * 3 * 1000 / 40000000000

/-! ## Step 15: port budgets (R92, R325) -/

/-- The stations of a port in frame order. -/
def Charter.portSlots (c : Charter) (p : Nat) : List SlotRec :=
  let l := c.slots.filter fun s => s.port == p
  (List.range 17).flatMap fun n => l.filter fun s => s.pos == n

/-- The axes of a station in axis-slot order. -/
def Charter.stationAxes (c : Charter) (st : Nat) : List AxisRec :=
  let l := c.axes.filter fun r => !isLocal r.target && field r.target 8 0 == st
  (List.range 16).flatMap fun n => l.filter fun r => field r.target 15 12 == n

/-- The axes whose load feedback a station provides, in axis-number order. -/
def Charter.stationLoads (c : Charter) (st : Nat) : List AxisRec :=
  let l := c.axes.filter fun r => bit r.loadFb 30 && !isLocal r.loadFb && field r.loadFb 8 0 == st
  (List.range 256).flatMap fun n => l.filter fun r => r.axis == n

/-- Cycle k is a sample cycle of an axis record (R94). -/
def Charter.sampleAt (c : Charter) (r : AxisRec) (k : Nat) : Bool := k % c.axisDiv r == r.phase

/-- Axis records of a station's return slot in cycle k. -/
def Charter.returnAxes (c : Charter) (st k : Nat) : List AxisRec := (c.stationAxes st).filter fun r => c.sampleAt r k
/-- Load records of a station's return slot in cycle k. -/
def Charter.returnLoads (c : Charter) (st k : Nat) : List AxisRec := (c.stationLoads st).filter fun r => c.sampleAt r k
/-- Axis records of a station's issue slot released at the clearing point of cycle k. -/
def Charter.issueAxes (c : Charter) (st k : Nat) : List AxisRec :=
  (c.stationAxes st).filter fun r => c.sampleAt r (k + 1)

/-- Words of a return axis record (R315). -/
def returnRecWords (mode : Nat) : Nat :=
  match mode with
  | 0 => 8
  | 1 => 7
  | _ => 1

/-- Words of a station's return slot, without its CRC (R314, R315). -/
def Charter.returnWords (c : Charter) (st : SlotRec) (k : Nat) : Nat :=
  4 + (c.returnAxes st.station k).foldl (fun n r => n + returnRecWords r.mode) 0 + (if st.io then 2 else 0)
    + 5 * (c.returnLoads st.station k).length

/-- Characters of a station's issue slot with its CRC (R311). -/
def Charter.issueChars (c : Charter) (st : SlotRec) (k : Nat) : Nat :=
  10 + 8 * (c.issueAxes st.station k).length + (if st.io then 8 else 0)

/-- Characters of SOF, issue header and CRC for a number of slots (R310). -/
def issueHeadChars (n : Nat) : Nat := 1 + 36 + (2 * n + 3) / 4 * 4 + 2
/-- Characters of SOF, return header and CRC (R313). -/
def returnHeadChars : Nat := 11

/-- E_I of the last issue slot of a list of stations (R325). Log 62 (DEDUCED). -/
def Charter.endIssue (c : Charter) (sts : List SlotRec) (n k : Nat) : Nat :=
  sts.foldl (fun e s => e + c.issueChars s k) (issueHeadChars n)
/-- E_R of the last return slot of a list of stations. -/
def Charter.endReturn (c : Charter) (sts : List SlotRec) (k : Nat) : Nat :=
  sts.foldl (fun e s => e + c.returnWords s k * 4 + 2) returnHeadChars

/-- The frame-length rule of a port at a residue, with characters of 2 ns. Log 62 (DEDUCED). -/
def Charter.frameRule (c : Charter) (p : PortRec) (m : Nat) : Bool :=
  let sts := c.portSlots p.port
  let ei := c.endIssue sts sts.length m
  let er := c.endReturn sts m
  decide (1000 + 2 * er ≤ p.returnDue) && decide (200 + 2 * (ei + 64) ≤ p.issueLead)
    && decide (2 * (ei + 66) + 32 ≤ c.period) && decide (2 * (er + 1) + 32 ≤ c.period)

/-- C of R89, which a Charter that fails here may have below 0. -/
def Charter.cpInt (c : Charter) : Int := (c.period : Int) - c.lMax

/-- W_p of R92. -/
def Charter.window (c : Charter) (p : PortRec) : Int := c.cpInt - 1000 - p.returnDue
/-- The window of local axes. -/
def Charter.localWindow (c : Charter) : Int := c.cpInt - 1200

/-- Cost / f fits a window of an axis, f being 833.3 MHz or 1 GHz. -/
def Charter.costFits (c : Charter) (r : AxisRec) (w : Int) : Bool :=
  let room := w + ((c.axisDiv r : Int) - 1) * c.period
  if c.derateWaive then decide ((c.axisCost r : Int) ≤ room) else decide ((c.axisCost r : Int) * 6 ≤ room * 5)

/-- The offsets that fail step 15. -/
def budgetFails (rs : List Rec) (c : Charter) : List Nat :=
  let ports := (recsOf rs 3 1).filterMap fun r =>
    match c.port? (r.f 0 4 0) with
    | none => none
    | some p =>
      if decide (500 ≤ p.returnDue) && decide (500 ≤ p.issueLead) && decide (2000 ≤ c.window p)
          && (List.range 8).all (c.frameRule p) then none
      else some r.offs
  let locals := if (c.axes.any fun r => isLocal r.target) && decide (c.localWindow < 2000) then [0] else []
  let axes := (recsOf rs 4 1).filterMap fun r =>
    match c.axis? (r.f 0 7 0) with
    | none => none
    | some a =>
      let w := match (axisPort c a.target).bind c.port? with
        | some p => c.window p
        | none => c.localWindow
      if c.costFits a w then none else some r.offs
  locals ++ ports ++ axes

/-! ## Validation (R78) -/

/-- Step 13: a record of section 0x0C stands only where TEST is set (R69). -/
def testFails (rs : List Rec) (c : Charter) : List Nat := if c.test then [] else (recsOf rs 12 1).map fun r => r.offs

/-- The Charter of a stream of words, or the first step that fails. -/
def validate (slots : List OtpSlot) (dramMib : Nat) (words : List Word) : Except ChtFail Charter := do
  let s ← checkEnvelope slots words
  let rs ← walkRecs (s + 1) 0 s words []
  checkOrder rs
  checkKinds rs
  checkSections (bit (words.getD 4 0) 2) rs
  checkFields dramMib rs { offs := s, sec := 0xFF, typ := 1, pay := words.drop (s + 1) }
  firstFail eDuplicate (dupOffs [] rs)
  let c := buildCharter words s rs
  firstFail eReference (refFails rs c)
  firstFail eLimit (limitFails rs c)
  firstFail eTest (testFails rs c)
  if c.loadOk then .ok () else .error { code := eLoad, offs := 0 }
  firstFail ePortBudget (budgetFails rs c)
  .ok c

end Sys2Proof.Machine
end

