-- ==== Sys2Proof/Machine/Enrol.lean ====
section
/-!
DEFINITION. Discovery, enrolment and violations (13_enrolment_and_violations): what a link engine keeps of its positions, the
matching and the checks of a station, leaving and suspension, the violation ring, and the commands of discovery.
-/
namespace Sys2Proof.Machine
open Sys2Proof

/-! ## Causes found outside the jobs (R103, R197, R198, R424) -/

/-- The released output of an axis goes off at once: EN and BRAKE_REL 0, until a job is in time (R198). The output area
of the page is written by commits alone and keeps what it holds (R98, R102). -/
def State.outputOff (s : State) (a : Nat) : State :=
  s.mapAxis a fun x => { x with out0 := 0, out1 := 0, outOff := true, run := { x.run with en := false } }

/-- Causes that arise together take effect at the clearing point that releases the axis's output; the Daybook counts the
fault that is recorded (R197, R424). -/
def State.takeCauses (s : State) (r : AxisRec) (codes : List Nat) : State :=
  let x := (s.axis r.axis).run
  let y := x.join (reactionOf r s.reduced) codes
  let s1 := s.mapAxis r.axis fun a =>
    { a with run := y, faults := if x.react = 0 ∧ y.react ≠ 0 then setAt a.faults (y.cause - 1) (· + 1) else a.faults }
  if y.react = 1 ∧ codes ≠ [] then s1.outputOff r.axis else s1

/-- One cause takes effect at the clearing point that releases the axis's output. -/
def State.takeCause (s : State) (r : AxisRec) (code : Nat) : State := s.takeCauses r [code]

/-- A cause found by the cycle block: it takes effect at the clearing point that has just passed where that one released
the axis's output, and else at the next that does (R197). Log 74 (DEDUCED). -/
def State.axisCause (s : State) (c : Charter) (r : AxisRec) (code : Nat) : State :=
  if !s.cyc.sampled && c.closes r (s.cyc.k - 1) then s.takeCause r code
  else s.mapAxis r.axis fun a => { a with causes := a.causes ++ [code] }

/-! ## Lines -/

/-- Characters of a port last this many ns (R304). -/
def Port.tc (p : Port) : Nat := if p.rate then 2 else 8

/-- The position of a port that holds a station number. -/
def Port.posOf (p : Port) (n : Nat) : Option Nat :=
  ((indexed p.pos).find? fun q => q.2.station == some n).map fun q => q.1 + 1

/-- A position counted from the other end of a line: by the stations that it had when it was last seen whole, which a split
line still has (R307, R309). -/
def Port.fromEnd (q : Port) (n : Nat) : Nat := if n = 0 then 0 else q.lineN + 1 - n

/-- A position counted from the port of the primary, of one that this unit counts from its own, and the other way round
(R307). Log 73 (DEDUCED). -/
def State.primaryPos (s : State) (p n : Nat) : Nat := if s.par.unit then (s.port p).fromEnd n else n

/-- The axes of a station number. -/
def Charter.axesOf (c : Charter) (st : Nat) : List AxisRec :=
  c.axes.filter fun r => !isLocal r.target && field r.target 8 0 == st

/-- A base cycle is a sample cycle of a station: of one of its axes; any for a station without axes. -/
def Charter.stationSamples (c : Charter) (st k : Nat) : Bool :=
  let l := c.axesOf st ++ c.stationLoads st
  l.isEmpty || l.any fun r => c.sampleAt r k

/-! ## Hop delays (R40, R41, R318, R336) -/

/-- Mean of 2 × h over at most n of the newest values: sum and count. -/
def hopSum (n : Nat) (l : List Int) : Int × Nat := ((l.take n).foldl (· + ·) 0, (l.take n).length)

/-- The mean of the last n values of h, whole UI. -/
def hopMean (n : Nat) (l : List Int) : Nat :=
  let (t, c) := hopSum n l
  if c = 0 then 0 else (crndDiv t (2 * c)).toNat

/-- Sum of fractions over hops 1 to n: numerator and denominator. -/
def hopFrac (cnt : Nat) (hist : List (List Int)) : Nat → Int × Nat
  | 0 => (0, 1)
  | n + 1 =>
    let (a, b) := hopFrac cnt hist n
    let (t, c) := hopSum cnt (hist.getD n [])
    if c = 0 then (a, b) else (a * ((2 * c : Nat) : Int) + t * (b : Int), b * (2 * c))

/-- D(n) in UI from means over `cnt` values: hops 1 to n and cut-through delays of positions 1 to n − 1. -/
def Port.delayOf (p : Port) (cnt : Nat) (hist : List (List Int)) (n : Nat) : Int :=
  let (a, b) := hopFrac cnt hist n
  let cuts : Nat := (p.cut.take (n - 1)).foldl (fun x y => x + y) 0
  crndDiv (a + (cuts : Int) * (b : Int)) b

/-- The values of a hop in cyclic frames, or those of its exchanges where it has none yet. Log 99 (DEDUCED). -/
def Port.hopsOf (p : Port) : List (List Int) :=
  (List.range 16).map fun i => match p.hopHist.getD i [] with
    | [] => (p.exchHist.getD i []).take 64
    | l => l

/-- D(n) in force: from the last 64 cycles (R41, R318). -/
def Port.delay (p : Port) (n : Nat) : Int := p.delayOf 64 p.hopsOf n

/-- D(n) at enrolment: from 256 dedicated exchanges (R41, R339); a hop that an Escrow alone gives counts as that shows it. -/
def Port.delayExch (p : Port) (n : Nat) : Int :=
  p.delayOf 256 ((List.range 16).map fun i => match p.exchHist.getD i [] with
    | [] => p.hopHist.getD i []
    | l => l) n

/-- A value of 2 × h(n) gained, in cyclic frames or in an exchange. Log 99 (DEDUCED). -/
def Port.addHop (p : Port) (cyclic : Bool) (n : Nat) (v : Int) : Port :=
  let q := if cyclic then { p with hopHist := setAt p.hopHist (n - 1) fun l => (v :: l).take 64 }
    else { p with exchHist := setAt p.exchHist (n - 1) fun l => (v :: l).take 256 }
  { q with hop := putAt q.hop (n - 1) (hopMean 64 (q.hopsOf.getD (n - 1) [])) }

/-- A reading of one position: r(n) and CUT_UI, or nothing where it is left out. -/
abbrev HopRead := Option (Nat × Nat)

/-- 2 × h(n) from the readings of positions n − 1 and n, r(0) first, modulo 2^32 in the stamps. -/
def hopValues (cyclic : Bool) (p : Port) : Nat → HopRead → List HopRead → Port
  | _, _, [] => p
  | n, prev, cur :: t =>
    let p1 := match prev, cur with
      | some (r0, c0), some (r1, c1) =>
        let q := p.addHop cyclic n ((r0 : Int) - 2 * c0 - r1)
        { q with cut := putAt q.cut (n - 1) c1 }
      | _, _ => p
    hopValues cyclic p1 (n + 1) cur t

/-- An exchange counts for a position where every cell up to its own has been received (R336). -/
def untilLost : List HopRead → List HopRead
  | [] => []
  | none :: t => none :: t.map fun _ => none
  | r :: t => r :: untilLost t

/-- Departure less arrival of a station's stamps, modulo 2^32 UI. -/
def turnaround (dep arr : Nat) : Nat := (dep + 2 ^ 32 - arr % 2 ^ 32) % 2 ^ 32

/-! ## Messages to stations (R319, R323, R331) -/

/-- A message queued for the downstream acyclic area. -/
def State.sendDown (s : State) (p station kind : Nat) (payload : List Word) : State :=
  s.mapPort p fun q => { q with txq := q.txq ++ [{ station := station, cell := false, kind := kind, payload := payload }] }

/-- A message queued for the discovery cell of a position. -/
def State.sendCell (s : State) (p n kind : Nat) (payload : List Word) : State :=
  s.mapPort p fun q => { q with discMsgs := q.discMsgs ++ [{ station := n, cell := true, kind := kind, payload := payload }] }

/-- RELEASE. -/
def State.sendRelease (s : State) (p n : Nat) : State := s.sendCell p n 0x23 []

/-- SLOT_CONFIG payload of a station (R323). -/
def Charter.slotConfig (c : Charter) (st effective : Nat) : List Word :=
  let ax := c.stationAxes st
  let ld := c.stationLoads st
  let io := match c.slot? st with
    | some r => r.io
    | none => false
  twoWords effective ++ [BitVec.ofNat 32 (ax.length + ld.length * 32 + flagAt io 9 + c.baseRate * 1024)]
    ++ ax.map (fun r => BitVec.ofNat 32 (field r.target 15 12 + r.mode * 16 + r.rate * 64 + r.phase * 256
        + field r.primary 15 12 * 4096))
    ++ ld.map (fun r => BitVec.ofNat 32 (field r.loadFb 15 12 + r.rate * 64 + r.phase * 256))

/-! ## Leaving (R342, R345, R346, R463) -/

/-- SERIAL of the station of a position, known from IDENTIFIED on (R335). -/
def Position.known (q : Position) : Option Word64 :=
  if q.st == .identified || q.st == .timing || q.st == .configuring || q.hasSlot
      || (q.st == .unbound && q.reason != 4 && q.reason != 5) then some q.serial
  else q.tolOf

/-- A position emptied into a state of the same station, whose tolerance counters stay with it (R345). -/
def Position.empty (q : Position) (st : PosState) (reason : Nat := 0) : Position :=
  { Position.reset with
    st := st, reason := reason, tol := q.tol, logged := q.logged, degr := q.degr, tolOf := q.known
    refused := if q.station.isSome then q.station else q.refused }

/-- The counters of a station kept where none stands to its name (R345). Log 70 (DEDUCED). -/
def Dsc.part (d : Dsc) (q : Position) : Dsc :=
  match q.known with
  | some n =>
    if q.tol.all (fun v => v == 0) then d
    else { d with parted := { serial := n, tol := q.tol, logged := q.logged, degr := q.degr }
                    :: d.parted.filter fun e => e.serial != n }
  | none => d

/-- No station stands at a position any more: what was counted goes with the one that stood there (R345). -/
def State.vacate (s : State) (p n : Nat) : State :=
  let q := (s.port p).at n
  (s.mapDsc fun d => d.part q).mapPos p n fun _ => Position.reset

/-- The counters of the station now identified at a position: its own, wherever it stood before (R345). Log 70 (DEDUCED). -/
def State.ownCounters (s : State) (p n : Nat) (serial : Word64) : State :=
  let q := (s.port p).at n
  if q.tolOf == some serial then s.mapPos p n fun q => { q with tolOf := none }
  else
    let s1 := if q.tolOf.isSome then
        (s.mapDsc fun d => d.part q).mapPos p n fun q =>
          { q with tol := List.replicate 10 0, logged := List.replicate 10 none, degr := [], tolOf := none }
      else s
    match s1.dsc.parted.find? fun e => e.serial == serial with
    | some e =>
      (s1.mapPos p n fun q =>
        { q with tol := (List.range 10).map fun i => q.tol.getD i 0 + e.tol.getD i 0
                 logged := e.logged, degr := e.degr }).mapDsc fun d =>
        { d with parted := d.parted.filter fun x => x.serial != serial }
    | none => s1

/-- A station number is no longer bound: what the station items show of it. -/
def Station.gone (t : Station) : Station :=
  { t with present := false, ready := false, locked := false, holdOff := false, evtLate := false, missing := 0,
           holdFrom := none, timed := [], params := [] }

/-- The DISCOVERY event of a port with a bit of DSC_EVT. -/
def State.dscEvent (s : State) (p bitNo : Nat) : State :=
  (s.mapDsc fun d => { d with evt := setBit d.evt bitNo }).raise 8 p

/-- The cycle number of the cycle in hand: from its sample to its clearing point that of the cycle sampled, else the count of
R15. -/
def State.cycleInHand (s : State) : Nat := if s.cyc.sampled && s.fullService then s.cyc.k else s.cyc.num

/-- The station of a position is absent (R342): PRESENT clears, its axes take cause 4, LEFT and the DISCOVERY event are
raised, an ENROL record is made, and the position goes to a state (R424). -/
def State.leave (s : State) (p n : Nat) (st : PosState) (reason : Nat := 0) : State :=
  let q := (s.port p).at n
  let s1 := if st = .absent then s.vacate p n else s.mapPos p n fun q => q.empty st reason
  match q.station with
  | none => s1
  | some num =>
    if !q.hasSlot then s1
    else
      let s2 := s1.mapStation num fun t => { t.gone with lastLeave := BitVec.ofNat 32 s.cycleInHand }
      let s3 := match s.charter with
        | some c => forEach (c.axesOf num) (fun (r : AxisRec) (s : State) => s.axisCause c r 4) s2
        | none => s2
      (s3.dayEnrol q p (s.primaryPos p n) st reason).dscEvent p 1

/-- Suspended: RELEASE is sent, the station counts as absent, and it enrols again from FOUND (R345). -/
def State.suspendPos (s : State) (p n : Nat) : State := (s.leave p n .suspended).sendRelease p n

/-! ## Violations (R345, R346, R348) -/

/-- A record of the violation ring: three items, then SEQ, and the head advances (R348). The Ledger is not used before it
is ready (R287, R407). Log 68 (DEDUCED). -/
def State.ringRecord (s : State) (code port pos : Nat) (station : Option Nat) (beyond : Bool) (detail : Word) : State :=
  if !s.ledger.ready || s.reduced then s
  else
    let r := s.dsc.ringHead
    let seq := if s.dsc.ringSeq + 1 = 0 then 1 else s.dsc.ringSeq + 1
    let w0 := BitVec.ofNat 32 (code + port * 2 ^ 8 + s.primaryPos port pos % 32 * 2 ^ 13 + station.getD 0x3FF
      * 2 ^ 18 + flagAt beyond 31)
    let stamp := s.cycleInHand % 2 ^ 24
    let put := fun (i : Nat) (v : Word) (s : State) => (s.transfer 21).writeEntry 21 (sigId 4 0 (4 * r + i)) (entry v 1 stamp)
    let s1 := put 3 seq (put 2 detail (put 1 (BitVec.ofNat 32 s.cycleInHand) (put 0 w0 s)))
    s1.mapDsc fun d => { d with ringHead := (r + 1) % 256, ringSeq := seq, evt := setBit d.evt 3 }

/-- The tolerance of a code; 0 is read as 1. -/
def Dsc.tolerance (d : Dsc) (code : Nat) : Nat :=
  let v := field (d.tol.getD (code - 1) 1) 15 0
  if v = 0 then 1 else v

/-- Beyond tolerance a code is logged at most once in 1,024 base cycles. -/
def logDue (beyond : Bool) (last : Option Nat) (k : Nat) : Bool :=
  !beyond || match last with
    | some j => decide (j + 1024 ≤ k)
    | none => true

/-- A violation of a station counted and logged; the second result tells that it is beyond tolerance. Log 70 (DEDUCED). -/
def State.countPos (s : State) (p n code : Nat) (detail : Word) : State × Bool :=
  let q := (s.port p).at n
  let v := q.tol.getD (code - 1) 0 + 1
  let beyond := decide (s.dsc.tolerance code < v)
  let due := logDue beyond (q.logged.getD (code - 1) none) s.cyc.k
  let s1 := s.mapPos p n fun q =>
    { q with
      tol := putAt q.tol (code - 1) v
      logged := if due && beyond then putAt q.logged (code - 1) (some s.cyc.k) else q.logged
      degr := if beyond && !q.degr.contains code then code :: q.degr else q.degr }
  let s2 := match q.station with
    | some num => s1.mapStation num fun t => { t with violations := t.violations + 1 }
    | none => s1
  let s3 := if due then s2.ringRecord code p n q.station beyond detail else s2
  (if beyond then s3.mapDsc fun d => { d with evt := setBit d.evt 4 } else s3, beyond)

/-- A violation of a port count. Log 70 (DEDUCED). -/
def State.countPort (s : State) (p code : Nat) (detail : Word) : State :=
  let q := s.port p
  let v := q.tol.getD (code - 1) 0 + 1
  let beyond := decide (s.dsc.tolerance code < v)
  let due := logDue beyond (q.logged.getD (code - 1) none) s.cyc.k
  let s1 := s.mapPort p fun q =>
    { q with
      tol := putAt q.tol (code - 1) v
      logged := if due && beyond then putAt q.logged (code - 1) (some s.cyc.k) else q.logged }
  let s2 := if due then s1.ringRecord code p 0 none beyond detail else s1
  if beyond then s2.mapDsc fun d => { d with evt := setBit d.evt 4 } else s2

/-- A segment isolated from a position on: TERMINATE upstream of it, or the port itself silenced. What is isolated already stays
so (R346). -/
def State.isolate (s : State) (p n : Nat) : State :=
  if (s.port p).isolatePos ≠ 0 ∧ (s.port p).isolatePos ≤ n then s
  else
  let s1 := s.mapPort p fun q =>
    { q with
      isolatePos := n, terminate := n - 1, babble := false, isolateK := s.cyc.k
      ctrl := if n = 1 && q.medium then setBit q.ctrl 0 else q.ctrl
      stopped := q.stopped || (n == 1 && !q.medium)
      pos := (indexed q.pos).map fun e =>
        if e.1 + 1 < n then e.2
        else if e.2.hasSlot then { e.2 with st := .isolated, reason := 10 }
        else e.2.empty .isolated 10 }
  s1.mapDsc fun d => { d with evt := setBit d.evt 5 }

/-- A violation of a station with its answer beyond tolerance: suspension, isolation, or DEGRADED alone. -/
def State.violate (s : State) (p n code : Nat) (detail : Word) : State :=
  let (s1, beyond) := s.countPos p n code detail
  if !beyond then s1
  else match code with
    | 2 => s1.suspendPos p n
    | 10 => s1.suspendPos p n
    | 9 => s1.isolate p n
    | 7 => s1.mapPos p n fun q => { q with blocked := true }
    | _ => s1

/-- DUP_ADDRESS of the stations at some positions: it is counted for each; all are suspended, or, where one is beyond
tolerance, all left UNBOUND until RETRY (R345). Log 68 (DEDUCED). -/
def State.duplicates (s : State) (l : List (Nat × Nat)) : State :=
  let (s1, beyond) := l.foldl (fun (a : State × Bool) e =>
    let (s1, b) := a.1.countPos e.1 e.2 4 0
    (s1, a.2 || b)) (s, false)
  forEach l (fun (e : Nat × Nat) s =>
    if beyond then
      (((s.leave e.1 e.2 .unbound 6).mapPos e.1 e.2 fun q => { q with blocked := true }).sendRelease e.1 e.2).dscEvent e.1 2
    else s.suspendPos e.1 e.2) s1

/-- A SOF that is not due: babble that no station is charged with but the last of the line (R346). -/
def State.strayFrame (s : State) (p : Nat) : State :=
  let n := (s.port p).found
  let s1 := s.mapPort p fun q => { q with babble := true }
  if n = 0 then s1 else s1.violate p n 9 0

/-! ## Refusals (R335, R348) -/

/-- A station left UNBOUND with a reason; `logged` where a record of its own is written. -/
def State.refuse (s : State) (p n reason : Nat) (logged : Bool := true) : State :=
  let q := (s.port p).at n
  let s1 := s.mapPos p n fun q =>
    { q with
      st := .unbound, reason := reason, station := none, assign := false, assignAt := none, acked := false, ahead := false
      refused := if q.station.isSome then q.station else q.refused }
  let s2 := if logged then s1.ringRecord (0x40 + reason) p n q.station false 0 else s1
  (s2.dayEnrol q p (s.primaryPos p n) .unbound reason).dscEvent p 2

/-- A station left UNBOUND after RELEASE. -/
def State.refuseReleased (s : State) (p n reason : Nat) : State := (s.sendRelease p n).refuse p n reason

/-! ## The descriptor (R306, R334) -/

/-- LENGTH of a descriptor. -/
def descLen (d : List Word) : Nat := field (d.getD 0 0) 15 0

/-- A descriptor that has been read is malformed. -/
def descBad (d : List Word) : Bool :=
  let n := descLen d
  let last := d.getD (n - 1) 0
  decide (n < 8) || decide (64 < n) || field (d.getD 0 0) 31 16 != 1 || field (d.getD 5 0) 31 29 != 0
    || field last 31 16 != 0 || crcWords (d.take (n - 1)) != last.setWidth 16

/-! ## Matching, capability and lead (R93, R326, R337, R338) -/

/-- A SLOT record is taken by a station of the port: until that is left UNBOUND, released or absent (R337). -/
def Port.taken (p : Port) (num : Nat) : Bool :=
  p.pos.any fun q => q.station == some num && (q.st == .timing || q.st == .configuring || q.hasSlot)

/-- A station of an identity at a position meets a SLOT record (R337). -/
def SlotRec.meets (r : SlotRec) (q : Position) (primaryPos : Nat) : Bool :=
  r.vendor == q.vendor && r.model == q.model && match r.matchKind with
    | 0 => r.serial == q.serial
    | 1 => r.pos == primaryPos
    | _ => true

/-- The SLOT record that a position takes among those free: MATCH 0 first, then by position. -/
def State.matchSlot (s : State) (c : Charter) (p n : Nat) : Option SlotRec :=
  let q := (s.port p).at n
  let ok := fun (r : SlotRec) => r.meets q (s.primaryPos p n) && !(s.port p).taken r.station
  let l := c.portSlots p
  (((List.range 3).flatMap fun m => l.filter fun r => r.matchKind == m)).find? ok

/-- The kind of a station channel is one of its FORMS, where FORMS has a bit for it (R238, R338). -/
def formOk (caps ssi : Word) : Bool :=
  match field ssi 8 7 with
  | 0 => bit caps 13
  | 1 => bit caps 14
  | 2 => bit caps 15
  | _ => true

/-- A station covers its SLOT record (R338). -/
def State.covers (s : State) (c : Charter) (num : Nat) (caps : Word) : Bool :=
  let ax := c.axesOf num
  let ld := c.stationLoads num
  let ch := field caps 12 9
  ax.all (fun r =>
      decide (field r.target 15 12 < field caps 4 0) && bit caps (5 + r.mode) && decide (field caps 25 24 ≤ r.rate)
        && (r.mode == 2 || (decide (field r.primary 15 12 < ch) && formOk caps (s.axis r.axis).ssi0)))
    && ld.all (fun r =>
      decide (field r.loadFb 15 12 < ch) && formOk caps (s.axis r.axis).ssi1 && decide (field caps 25 24 ≤ r.rate))
    && (match c.slot? num with
        | some r => !r.io || bit caps 8
        | none => false)

/-- Position from the own port of a record's POS, which counts from the primary's; where the length of the line is not known, by the
order of the longest (R307, R309). Log 73 (DEDUCED). -/
def State.ownPos (s : State) (p n : Nat) : Nat :=
  if !s.par.unit then n else if (s.port p).lineN = 0 then 17 - n else (s.port p).fromEnd n

/-- The stations of a port's Charter in the order of their distance from the own port: by the position a station has where it is
known, by its record otherwise (R309). -/
def State.frameOrder (s : State) (c : Charter) (p : Nat) : List SlotRec :=
  let place := fun (r : SlotRec) => ((s.port p).posOf r.station).getD (s.ownPos p r.pos)
  let l := c.slots.filter fun r => r.port == p
  (List.range 17).flatMap fun n => l.filter fun r => place r == n

/-- R93, R326: the issue and the return slot of a station stand in time at every residue, by the delays measured, with
characters of `tc` ns and a turning time in ns. Log 63 (DEDUCED). -/
def State.leadFits (s : State) (c : Charter) (num p n tc turn : Nat) : Bool :=
  match c.port? p with
  | none => false
  | some pr =>
    let q := s.port p
    let order := s.frameOrder c p
    let upto := order.take ((order.findIdx fun r => r.station == num) + 1)
    (List.range 8).all fun m =>
      decide (q.delayExch n + 5 * tc * c.endIssue upto order.length m ≤ 5 * ((pr.issueLead : Int) - 200))
        && decide (5 * turn + q.delayExch q.found + 5 * tc * c.endReturn upto m ≤ 5 * (pr.returnDue : Int))

/-- The check at the present rate of the line; in reduced service the turning time is 4,000 ns (R410). Log 63 (DEDUCED). -/
def State.leadOk (s : State) (c : Charter) (num p n : Nat) : Bool :=
  s.leadFits c num p n (s.port p).tc (if s.reduced then 4000 else 1000)

/-- A station that fails R93: the port's bit and the event (R93). -/
def State.leadShort (s : State) (p : Nat) : State :=
  s.mapCyc fun c => { c with leadShort := setBit c.leadShort p, evt := setBit c.evt 3 }

/-- The first sample cycle of a station at or after a base cycle. -/
def Charter.nextSample (c : Charter) (num k : Nat) : Nat :=
  match (List.range 8).find? fun i => c.stationSamples num (k + i) with
  | some i => k + i
  | none => k

/-- The identified station of a position is matched and checked (R337, R338): TIMING, or UNBOUND with its reason.
Log 69 (DEDUCED). -/
def State.enrolMatch (s : State) (p n : Nat) : State :=
  match s.charter with
  | none => s.refuse p n 2
  | some c =>
    if (c.port? p).isNone then s.refuse p n 2
    else match s.matchSlot c p n with
      | none => s.refuse p n 1
      | some r =>
        if s.covers c r.station ((s.port p).at n).caps then
          (s.mapPos p n fun q =>
            { q with
              st := .timing, reason := 0, station := some r.station, assign := false, assignAt := none
              refused := none }).mapStation
            r.station fun t => { t with credit := field ((s.port p).at n).caps 23 16 }
        else (s.mapPos p n fun q => { q with refused := some r.station }).refuse p n 3

/-- SLOT_CONFIG sent to a position's station with an EFFECTIVE. -/
def State.sendConfig (s : State) (c : Charter) (p n num effective : Nat) : State :=
  (s.mapPos p n fun q => { q with effective := effective, acked := false, sentAt := s.cyc.k }).sendDown p num 0x02
    (c.slotConfig num effective)

/-- An attempt of SLOT_CONFIG: EFFECTIVE is the first sample cycle at least 128 base cycles after the send (R340). -/
def State.configure (s : State) (c : Charter) (p n num least : Nat) : State :=
  let e := c.nextSample num (max (s.cyc.k + 128) least)
  (s.sendConfig c p n num e).mapPos p n fun q => { q with st := .configuring, attempts := q.attempts + 1 }

/-- The cycle of an armed swap, where one is armed. -/
def Cht.armedAt (t : Cht) : Option Nat := if t.stage == .armed then some t.swapAt.toNat else none

/-- A station is configured, after the check of R93 where it has just locked. Where an armed swap falls before its EFFECTIVE,
it is matched against the staged Charter, and EFFECTIVE is c + 1 or later (R339 to R341). -/
def State.attempt (s : State) (p n : Nat) (check : Bool) : State :=
  let q := (s.port p).at n
  match s.charter, q.station with
  | some c, some num =>
    let e := c.nextSample num (s.cyc.k + 128)
    let c' := match s.cht.armedAt, s.cht.staged with
      | some at1, some st => if decide (at1 + 1 ≤ e) then some (st, at1) else none
      | _, _ => none
    match c' with
    | none =>
      if !check || s.leadOk c num p n then s.configure c p n num 0
      else (s.leadShort p).refuseReleased p n 8
    | some (st, at1) =>
      let free := s.mapPos p n fun q => { q with station := none }
      match (if (st.port? p).isSome then free.matchSlot st p n else none) with
      | none => s.refuseReleased p n (if (st.port? p).isSome then 1 else 2)
      | some r =>
        if !s.covers st r.station q.caps then s.refuseReleased p n 3
        else if r.station ≠ num then
          s.mapPos p n fun q =>
            { q with st := .timing, station := some r.station, assign := true, assignAt := none, acked := false, ahead := true }
        else if s.leadOk st num p n then
          (s.configure st p n num (at1 + 1)).mapPos p n fun q => { q with ahead := true }
        else (s.leadShort p).refuseReleased p n 8
  | _, _ => s

/-- A station in TIMING reports LOCKED: it is checked and configured (R339, R340). -/
def State.lockedStation (s : State) (p n : Nat) : State := s.attempt p n true

/-! ## Bound (R340, R343) -/

/-- The next record of a role is its station's first: of a station enrolled again it resumes, of one enrolled for the first
time it begins the count (R243). -/
def FbRun.enrolled (f : FbRun) (again : Bool) : FbRun :=
  if again then { f with rebind := true } else { f with first := true }

/-- The feedback of an axis resumes after its station has bound: rebind records, first readings of its channels, and the clearing
of cause 4 under REJOIN 1 (R236, R243, R343). -/
def State.rebindAxes (s : State) (c : Charter) (num : Nat) (rejoin again : Bool) : State :=
  let s1 := forEach (c.axesOf num) (fun r s => s.mapAxis r.axis fun a =>
    { (if isLocal r.primary then a else a.freshChan false) with run := { a.run with
        prim := a.run.prim.enrolled again, rejoinClear := a.run.rejoinClear || rejoin } }) s
  forEach (c.stationLoads num) (fun r s => s.mapAxis r.axis fun a =>
    { (a.freshChan true) with run := { a.run with load := a.run.load.enrolled again } }) s1

/-- The station of a position is BOUND from its EFFECTIVE. An ENROL record is made, and an axis that another station actuated
before opens a new AXIS record (R424). -/
def State.bind (s : State) (p n num : Nat) : State :=
  let q := (s.port p).at n
  let rejoin := match s.charter.bind fun c => c.slot? num with
    | some r => r.rejoin == 1
    | none => false
  let s1 := (s.mapPos p n fun q =>
      { q with st := .bound, reason := 0, attempts := 0, refused := none }).mapStation num fun t =>
    { t with present := true, stale := true, serial := q.serial, enrolments := t.enrolments + 1, missing := 0 }
  let s2 := match s.charter with
    | some c => forEach (c.axesOf num) (fun (r : AxisRec) (s : State) => s.reviewRecord r)
        (s1.rebindAxes c num rejoin (decide (0 < (s.station num).enrolments)))
    | none => s1
  (s2.dayEnrol q p (s.primaryPos p n) .bound 0).dscEvent p 0

/-- EFFECTIVE_REACHED: a configured station that has acknowledged is BOUND; without SLOT_ACK the step is repeated, and
after the third attempt the station is refused. While DSC_CTRL.RUN is 0 it stays unbound (R340, R347). -/
def execEffectiveReached (port pos : Nat) (s : State) : Host.Outcome State Fault Refusal :=
  let q := (s.port port).at pos
  match q.st, q.station, s.charter with
  | .configuring, some num, some _ =>
    if s.cyc.k < q.effective ∨ bit s.dsc.ctrl 0 = false then .next s
    else if q.acked then .next (s.bind port pos num)
    else if 3 ≤ q.attempts then .next (s.refuseReleased port pos 9)
    else .next (s.attempt port pos false)
  | _, _, _ => .next s

/-- DSC_CTRL.RUN goes to 0: enrolment stops. What a station in CONFIGURING has acknowledged counts no more; once RUN is 1
again, its step is repeated, and the cycles to LOCKED run from the ASSIGN that is sent then (R347). Log 69 (DEDUCED). -/
def Port.stopEnrol (p : Port) : Port :=
  { p with pos := p.pos.map fun q =>
      if q.st == .configuring then { q with acked := false, ackedFor := none }
      else if q.st == .timing then { q with assignAt := none } else q }

/-- t_S becomes the first reduced instant at least 4 ms after READY and the last SLOT_ACK, where that is sooner than the
latest it may be (R409). -/
def State.fixTs (s : State) : State :=
  if s.cht.phase == .waitTs && s.ledger.ready && s.cht.keptWait.isEmpty then
    s.mapCht fun t => { t with tS := min t.tS (ceilTo 250000 (s.tim.now + 4000000)) }
  else s

/-- SLOT_ACK of the station at a position: its EFFECTIVE is acknowledged; a kept station's is the 0 of START. One that
answers no configuration is unsolicited (R323, R345, R409, R463). -/
def State.slotAck (s : State) (p n num effective : Nat) : State :=
  let q := (s.port p).at n
  if q.st == .configuring && !bit s.dsc.ctrl 0 then s
  else if (q.st == .configuring || q.st == .bound) && effective == q.effective then
    ((s.mapPos p n fun q => { q with acked := true, ackedFor := some effective }).mapCht fun t =>
      { t with keptWait := t.keptWait.filter fun m => m != num }).fixTs
  else s.violate p n 6 0x05

/-! ## The reply (R330, R336 to R340, R344) -/

/-- A cell that can be used: a station is present, with a good CRC. -/
def cellOk (c : Cell) : Bool := !c.fill && c.crcOk && c.present

/-- The position of a port whose station, assigned and past identification, a cell names. -/
def Port.namedAt (p : Port) (c : Cell) : Option Nat :=
  if cellOk c && c.assigned then
    ((indexed p.pos).find? fun q => q.2.station == some c.station
      && (q.2.st == .bound || q.2.st == .configuring || q.2.st == .timing)).map fun q => q.1 + 1
  else none

/-- The positions of a line. -/
def allPos : List Nat := (List.range 16).map fun i => i + 1

/-- The position whose record a position takes, once positions follow the stations that the cells name (R344): position n takes
the record of the station its cell names. The record of a station that keeps its frame slot, and stands neither where it stood nor at a position that a cell names, goes to
one that has come free: it leaves only under R342. Log 69 (DEDUCED). -/
def Port.source (p : Port) (cells : List Cell) (n : Nat) : Option Nat :=
  let names := cells.map p.namedAt
  let one := fun (n : Nat) => (names.filter fun m => m == some n).length == 1
  let comes := fun (n : Nat) => (names.getD (n - 1) none).filter one
  let pushed := allPos.filter fun n => (comes n).isSome && !one n
  let free := allPos.filter fun n => one n && (comes n).isNone
  match comes n with
  | some m => some m
  | none =>
    if one n then
      let m := pushed.getD (free.findIdx fun m => m == n) 0
      if m ≠ 0 ∧ (p.at m).hasSlot = true then some m else none
    else some n

/-- The positions of a port with the records that they take. -/
def Port.follow (p : Port) (cells : List Cell) : Port :=
  { p with pos := allPos.map fun n => match p.source cells n with
      | some m => p.at m
      | none => Position.reset }

/-- Positions whose records no position takes: what was counted stays with the station that stood there (R345). -/
def Port.displaced (p : Port) (cells : List Cell) : List Nat :=
  allPos.filter fun m => !allPos.any fun n => p.source cells n == some m

/-- Station numbers that two cells or more report, each with the positions of those cells. -/
def dupCells (cells : List Cell) : List (List Nat) :=
  let nums := cells.map fun c => if cellOk c && c.assigned then some c.station else none
  let places := fun (x : Option Nat) => (indexed nums).filterMap fun e => if e.2 == x then some (e.1 + 1) else none
  (indexed nums).filterMap fun e =>
    let l := places e.2
    if e.2.isSome && decide (1 < l.length) && l.head? == some (e.1 + 1) then some l else none

/-- The station number that a cell reports as its own. -/
def cellReports (c : Cell) : Option Nat := if cellOk c && c.assigned then some c.station else none

/-- The position of another port whose cell reports a station number too (R345). -/
def State.elsewhere (s : State) (p num : Nat) : Option (Nat × Nat) :=
  ((List.range 32).flatMap fun a => if a = p then [] else
    (s.port a).reported.filterMap fun e => if e.2 = num then some (a, e.1) else none).head?

/-- Stations that report the number of one on another port: each pair of positions. -/
def State.dupPorts (s : State) (p : Nat) (cells : List Cell) : List (List (Nat × Nat)) :=
  (indexed cells).filterMap fun e => (cellReports e.2).bind fun num => (s.elsewhere p num).map fun x => [(p, e.1 + 1), x]

/-- The stations, on every port, whose SERIAL is known and equals that of a position (R345). -/
def State.twins (s : State) (p n : Nat) (serial : Word64) : List (Nat × Nat) :=
  (List.range 32).flatMap fun a => (List.range 16).filterMap fun i =>
    let q := (s.port a).at (i + 1)
    let here := q.st == .identified || q.st == .timing || q.st == .configuring || q.hasSlot
      || (q.st == .unbound && q.reason != 4 && q.reason != 5 && q.reason != 6)
    if here && q.serial == serial && !(a == p && i + 1 == n) then some (a, i + 1) else none

/-- An IDENT_REQ sent to a position may still be answered: a station answers in the reply of the frame that carried it or in the next
one (R331). -/
def Port.mayAnswer (p : Port) (n : Nat) : Bool :=
  match (p.at n).askSeq with
  | some a => decide ((p.seq - a).toNat ≤ 1)
  | none => false

/-- IDENT_DATA for a position in FOUND: words are gathered; a second read that differs is malformed, also where the answer to a
repeated request comes past FOUND; the second result tells that the answer asked for came. Log 69 (DEDUCED). -/
def State.identData (s : State) (p n : Nat) (pay : List Word) : State × Bool :=
  let q := (s.port p).at n
  let off := field (pay.getD 0 0) 7 0
  let ws := (pay.drop 1).take 4
  let bad := fun (s : State) => (s.violate p n 7 0).refuse p n 4 false
  if q.st ≠ .found ∧ (s.port p).mayAnswer n = true ∧ off + 4 ≤ q.desc.length then
    (if (q.desc.drop off).take 4 = ws ∨ q.hasSlot = true then s else bad s, false)
  else if q.st ≠ .found ∨ q.ask.isNone then (s.violate p n 6 0x21, false)
  else if off + 4 ≤ q.desc.length then
    (if (q.desc.drop off).take 4 = ws then s else bad s, false)
  else if off ≠ q.desc.length then (s.violate p n 6 0x21, false)
  else
    let d := q.desc ++ ws
    let s1 := s.mapPos p n fun q => { q with desc := d, ask := none, noAnswer := 0 }
    let len := descLen d
    if len < 8 ∨ 64 < len then (bad s1, true)
    else if d.length < len then (s1, true)
    else if descBad d then (bad s1, true)
    else
      let serial := d.getD 4 0 ++ d.getD 3 0
      let s2 := (s1.ownCounters p n serial).mapPos p n fun q =>
        { q with st := .identified, vendor := d.getD 1 0, model := d.getD 2 0, serial := serial, caps := d.getD 5 0 }
      match s2.twins p n serial with
      | [] => (if s2.reduced && s2.cht.started then s2 else s2.enrolMatch p n, true)
      | l => (s2.duplicates ((p, n) :: l), true)

/-- PARAM_RESP of a station: the answer to a PARAM request outstanding; any other is unsolicited (R319, R345). -/
def State.paramResp (s : State) (p n num : Nat) (m : Msg) : State :=
  let tag := field (m.payload.getD 0 0) 31 24
  if (s.station num).params.contains tag then
    s.mapStation num fun t => { t with params := t.params.filter fun x => x != tag }
  else s.violate p n 6 0x12

/-- The message of a cell: what a station without a frame slot sends there, and IDENT_DATA (R331). -/
def State.cellMessage (s : State) (p n : Nat) (m : Msg) : State × Bool :=
  if !m.crcOk then
    (s.mapPort p fun q => { q with crcErr := q.crcErr + 1, evt := setBit q.evt 6 }, false)
  else if m.station ≠ n ∨ 5 < m.payload.length then (s.violate p n 6 (BitVec.ofNat 32 m.kind), false)
  else
    let q := (s.port p).at n
    match m.kind, (if q.hasSlot then none else q.station) with
    | 0x21, _ => s.identData p n m.payload
    | 0x05, some num => (s.slotAck p n num ((m.payload.getD 0 0).toNat + (m.payload.getD 1 0).toNat * 2 ^ 32), false)
    | 0x12, some num => (s.paramResp p n num m, false)
    | k, _ => (s.violate p n 6 (BitVec.ofNat 32 k), false)

/-- An exchange without the answer asked for: the third leaves the station UNBOUND (R336). -/
def State.noAnswer (s : State) (p n : Nat) : State :=
  let q := (s.port p).at n
  if q.st ≠ .found ∨ q.ask.isNone then s
  else if 3 ≤ q.noAnswer + 1 then s.refuse p n 5
  else s.mapPos p n fun q => { q with noAnswer := q.noAnswer + 1 }

/-- A position whose cell is still fill: what stood there in enrolment is gone. -/
def State.cellFill (s : State) (p n : Nat) : State :=
  match ((s.port p).at n).st with
  | .bound => s
  | .isolated => s
  | .absent => s
  | _ => s.vacate p n

/-- A good cell of a position; `timed` tells that the exchange counts for timing. -/
def State.cellSeen (s : State) (p n : Nat) (c : Cell) (timed : Bool) : State :=
  let q := (s.port p).at n
  let again := q.st == .absent || q.st == .suspended || (q.st == .unbound && q.reason == 4 && !q.blocked)
  if q.st = .isolated then s
  else if again then
    s.mapPos p n fun q => { (q.empty .found) with cutUi := c.cutUi, exchanges := if timed then 1 else 0 }
  else
    let s1 := s.mapPos p n fun q =>
      { q with cutUi := c.cutUi, exchanges := q.exchanges + (if timed then 1 else 0) }
    let (s2, answered) := match c.msg with
      | some m => s1.cellMessage p n m
      | none => (s1, false)
    let s3 := if answered then s2 else s2.noAnswer p n
    let r := (s3.port p).at n
    if r.st == .timing && r.assign && c.locked && c.assigned && r.station == some c.station then
      s3.lockedStation p n
    else s3

/-- One cell of a reply. -/
def State.cell (s : State) (p n : Nat) (c : Cell) (timed : Bool) : State :=
  let s0 := if c.babble then s.violate p n 9 0 else s
  if c.fill then s0.cellFill p n
  else if !c.crcOk then s0.mapPort p fun q => { q with crcErr := q.crcErr + 1, evt := setBit q.evt 3 }
  else if !c.present then s0.cellFill p n
  else s0.cellSeen p n c timed

/-- A cell that is still fill. -/
def noCell : Cell :=
  { fill := true, status := [], crcRx := 0, babble := false, msg := none }

/-- Invalid code groups of a port: each is counted, and is an INVALID_SYMBOL of the port count (R304, R345). -/
def State.symErrors (s : State) (p n : Nat) : State :=
  if n = 0 then s
  else
    let s1 := s.mapPort p fun q => { q with symErr := q.symErr + BitVec.ofNat 32 n, evt := setBit q.evt 2 }
    forRange n (fun _ s => s.countPort p 8 0) s1

/-- The delay of received characters brings the end of a discovery reply to the coming clearing point or beyond it: the reply
is lost (R330, R333, R393). -/
def State.replyTooLate (s : State) (p rarrUi : Nat) : Bool :=
  s.ptb.delayOf p != 0 && decide (s.cyc.tk + s.cpOffs ≤ rarrUi / 5 + 788 * (s.port p).tc + s.ptb.delayOf p)

/-- The reply of a discovery exchange: its cells in the order of the positions, which counts from the primary's port (R307, R337). -/
def State.discReply (s : State) (p : Nat) (r : DiscReply) : State :=
  let cells := (List.range 16).map fun i => if i < r.n then r.cells.getD i noCell else noCell
  let reads : List HopRead := cells.map fun c => if cellOk c then some (turnaround c.depUi c.arrUi, c.cutUi) else none
  let dups := (dupCells cells).map (fun l => l.map fun n => (p, n)) ++ s.dupPorts p cells
  let s0 := forEach ((s.port p).displaced cells) (fun m s => s.mapDsc fun d => d.part ((s.port p).at m)) s
  let s1 := s0.mapPort p fun q =>
    hopValues false ({ q with
      found := r.n, stations := r.n, lineN := max q.lineN r.n, pendingDisc := none
      reported := (indexed cells).filterMap fun (e : Nat × Cell) => (cellReports e.2).map fun num => (e.1 + 1, num) }.follow cells) 1
      (some (turnaround r.rarrUi q.discLaunchUi, 0)) (untilLost reads)
  let s2 := forEach dups (fun l s => forEach l (fun (e : Nat × Nat) (s : State) => s.mapPort e.1 fun q =>
    { q with reported := q.reported.filter fun x => x.1 != e.2 }) (s.duplicates l)) s1
  let order := if s.par.unit then (indexed cells).reverse else indexed cells
  forEach order
    (fun (e : Nat × Cell) s =>
      if dups.any (fun l => l.contains (p, e.1 + 1)) then s
      else s.cell p (e.1 + 1) e.2 ((reads.take (e.1 + 1)).all fun x => x.isSome)) s2

/-- DISCOVERY_REPLY: a reply to the exchange outstanding; where none is, its SOF is babble (R346). One whose header CRC fails
is not used, nor one that echoes another SEQ. While DSC_CTRL.RUN is 0 enrolment has stopped (R347). -/
def execDiscoveryReply (port : Nat) (reply : DiscReply) (s : State) : Host.Outcome State Fault Refusal :=
  let s1 := s.symErrors port reply.symErrs
  match (s.port port).pendingDisc with
  | none => .next (s1.strayFrame port)
  | some seq =>
    if s.replyTooLate port reply.rarrUi then .next (s1.mapPort port fun q => { q with pendingDisc := none })
    else if !reply.hdrOk then
      .next (s1.mapPort port fun q => { q with crcErr := q.crcErr + 1, evt := setBit q.evt 3 })
    else if seq ≠ reply.seq then .next s1
    else if !bit s.dsc.ctrl 0 then .next (s1.mapPort port fun q => { q with pendingDisc := none })
    else .next (s1.discReply port reply)

/-- DISCOVERY_REPLY_LOST: the exchange outstanding is lost and does not count (R333). -/
def execDiscoveryReplyLost (port : Nat) (s : State) : Host.Outcome State Fault Refusal :=
  .next (s.mapPort port fun q => { q with pendingDisc := none })

/-- TIMING_COMPLETE: after 256 timing exchanges ASSIGN is sent from the next discovery frame on; while DSC_CTRL.RUN is 0 enrolment has
stopped (R339, R347). -/
def execTimingComplete (port pos : Nat) (s : State) : Host.Outcome State Fault Refusal :=
  let q := (s.port port).at pos
  if q.st == .timing && decide (256 ≤ q.exchanges) && bit s.dsc.ctrl 0 then
    .next (s.mapPos port pos fun q => { q with assign := true })
  else .next s

/-- LOCK_TIMEOUT: no LOCKED within 1,024 base cycles of the first ASSIGN; none is refused while DSC_CTRL.RUN is 0 (R339, R347). -/
def execLockTimeout (port pos : Nat) (s : State) : Host.Outcome State Fault Refusal :=
  let q := (s.port port).at pos
  match q.st, q.assignAt with
  | .timing, some k =>
    if bit s.dsc.ctrl 0 = true ∧ k + 1024 < s.cyc.k then .next (s.refuseReleased port pos 7) else .next s
  | _, _ => .next s

/-- The station of a position leaves where three of its slots have been missing; cut off by isolation, its position stays ISOLATED
(R342, R346). -/
def State.leaveAbsent (s : State) (p n : Nat) : State :=
  let q := (s.port p).at n
  match q.station with
  | some num =>
    if q.hasSlot && decide (3 ≤ (s.station num).missing) then
      s.leave p n (if q.st == .isolated then .isolated else .absent) (if q.st == .isolated then 10 else 0)
    else s
  | none => s

/-- The stations absent at this clearing point leave, at a swap under the outgoing Charter (R342, R347, R463). -/
def State.leaveMissing (s : State) : State :=
  forRange 32 (fun p s => forRange 16 (fun i s => s.leaveAbsent p (i + 1)) s) s

/-- STATION_ABSENT: three sample cycles without a return slot (R342). The clearing point itself sends away a station whose third
missing slot it finds, so that its items show it. Log 100 (DEDUCED). -/
def execStationAbsent (port pos : Nat) (s : State) : Host.Outcome State Fault Refusal := .next (s.leaveAbsent port pos)

/-! ## Tolerances, isolation and commands -/

/-- A list of counters decreased by 1, not below 0. -/
def decay (l : List Nat) : List Nat := l.map fun v => v - 1

/-- DEGRADED of a code clears when its counter returns to 0 (R345). -/
def Position.decay (q : Position) : Position :=
  let t := q.tol.map fun v => v - 1
  { q with tol := t, degr := q.degr.filter fun c => t.getD (c - 1) 0 != 0 }

/-- The counters of a station that stands nowhere fall as all do. -/
def Parted.decay (q : Parted) : Parted :=
  let t := q.tol.map fun v => v - 1
  { q with tol := t, degr := q.degr.filter fun c => t.getD (c - 1) 0 != 0 }

/-- TOLERANCE_DECAY: at a base cycle whose number is a multiple of 1,024. -/
def execToleranceDecay (s : State) : Host.Outcome State Fault Refusal :=
  if s.cyc.service ≠ 0 ∧ s.cyc.k % 1024 = 0 then
    .next { s with
      ports := s.ports.map fun q => { q with tol := Sys2Proof.Machine.decay q.tol, pos := q.pos.map Position.decay }
      dsc := { s.dsc with parted := (s.dsc.parted.map Parted.decay).filter fun e => !e.tol.all fun v => v == 0 } }
  else .next s

/-- ISOLATE_NEXT: unattributed babble has continued for 64 base cycles after isolation (R346). -/
def execIsolateNext (port : Nat) (s : State) : Host.Outcome State Fault Refusal :=
  let q := s.port port
  if q.babble && decide (1 < q.isolatePos) && decide (q.isolateK + 64 ≤ s.cyc.k)
    then .next (s.isolate port (q.isolatePos - 1)) else .next s

/-- DSC_SEL: the port selected, and the position as this unit counts it (R307). -/
def State.dscSel (s : State) : Nat × Nat :=
  let p := field s.dsc.sel 4 0
  (p, s.primaryPos p (field s.dsc.sel 12 8))

/-- A position retried: UNBOUND, it enrols from FOUND (R335). -/
def State.retryPos (s : State) (p n : Nat) : State :=
  if n ≠ 0 ∧ ((s.port p).at n).st = .unbound then s.mapPos p n fun q => q.empty .found else s

/-- A position suspended by software: BOUND, it is suspended and enrols again (R345). -/
def State.suspendBound (s : State) (p n : Nat) : State :=
  if n ≠ 0 ∧ ((s.port p).at n).st = .bound then s.suspendPos p n else s

/-- TERMINATE and TX_DISABLE of a port are withdrawn, and isolated positions return to ABSENT (R346). -/
def State.unisolatePort (s : State) (p : Nat) : State :=
  if (s.port p).isolatePos = 0 then s
  else
    let s1 := s.mapPort p fun q =>
      { q with isolatePos := 0, terminate := 0, stopped := false, babble := false
               ctrl := if q.medium then clearBit q.ctrl 0 else q.ctrl }
    forRange 16 (fun i s => if ((s.port p).at (i + 1)).st = .isolated then s.leave p (i + 1) .absent else s) s1

/-- What the state that a command of DSC_CMD names is at present: of the position, or of the isolation of the port. -/
def State.dscMark (s : State) (op p n : Nat) : Nat :=
  if op = 2 then (s.port p).isolatePos else posCode ((s.port p).at n).st

/-- A command of DSC_CMD is kept to the end of the base cycle, with the state that it left: where that changes in the same cycle,
the command acts on the state after the change too (R347). Log 69 (DEDUCED). -/
def State.dscKeep (s : State) (op p n : Nat) : State :=
  if s.cyc.service = 0 then s else s.mapDsc fun d => { d with cmds := d.cmds ++ [(op, p, n, s.dscMark op p n)] }

/-- The commands of the base cycle on positions whose state has changed since (R347). -/
def State.dscAgain (s : State) : State :=
  (forEach s.dsc.cmds (fun (e : Nat × Nat × Nat × Nat) (s : State) =>
    if s.dscMark e.1 e.2.1 e.2.2.1 = e.2.2.2 then s
    else match e.1 with
      | 0 => s.retryPos e.2.1 e.2.2.1
      | 1 => s.suspendBound e.2.1 e.2.2.1
      | _ => s.unisolatePort e.2.1) s).mapDsc fun d => { d with cmds := [] }

/-- RETRY: an UNBOUND position enrols from FOUND (R335, R347). -/
def execRetry (_src : Source) (s : State) : Host.Outcome State Fault Refusal :=
  .next ((s.retryPos s.dscSel.1 s.dscSel.2).dscKeep 0 s.dscSel.1 s.dscSel.2)

/-- SUSPEND: a BOUND position is suspended and enrols again (R345, R347). -/
def execStationSuspend (_src : Source) (s : State) : Host.Outcome State Fault Refusal :=
  .next ((s.suspendBound s.dscSel.1 s.dscSel.2).dscKeep 1 s.dscSel.1 s.dscSel.2)

/-- UNISOLATE: TERMINATE and TX_DISABLE are withdrawn, and isolated positions return to ABSENT (R346, R347). -/
def execUnisolate (_src : Source) (s : State) : Host.Outcome State Fault Refusal :=
  .next ((s.unisolatePort s.dscSel.1).dscKeep 2 s.dscSel.1 s.dscSel.2)

end Sys2Proof.Machine
end

