-- ==== Sys2Proof/Machine/Warrant.lean ====
section
/-!
DEFINITION. The Warrant as the rest of the device meets it (15_paired_units, R364 to R371, R376, R425): roles and their
changes, the claim of an epoch, and the loss of the Warrant.
-/
namespace Sys2Proof.Machine
open Sys2Proof

/-! ## Epochs (R369, R425) -/

/-- The highest epoch seen: in frames, and in the Daybook. -/
def State.highestEpoch (s : State) : Nat := max s.par.highest (max s.dbk.epoch s.dbk.epochAo)

/-- The highest epoch seen without that of a claim still to be launched. -/
def State.heardEpoch (s : State) : Nat :=
  if s.par.claimAt.isSome && !s.par.holds then
    max s.par.highest (max s.par.epochBefore (if s.dbk.epoch = s.par.claim then 0 else s.dbk.epoch))
  else s.highestEpoch

/-- The smallest epoch of the unit's parity above the highest seen: odd on the primary, even on the secondary. -/
def State.nextEpoch (s : State) : Nat :=
  let n := s.highestEpoch + 1
  if (n % 2 = 1) = (s.par.unit = false) then n else n + 1

/-- An epoch is claimed: it is written to DBK_EPOCH_AO before the first frame that carries it, and waits for the journal.
DBK_EPOCH_AO takes no write while VBAK is below 2.0 V (R425, R434). -/
def State.claimEpoch (s : State) : State :=
  let e := s.nextEpoch
  (s.mapPar fun p => { p with epochBefore := s.dbk.epochAo, claim := e }).mapDbk fun d =>
    ({ d with epochAo := if s.tim.vbak then e else d.epochAo }).add 6 s.stamp [BitVec.ofNat 32 e]

/-- The Warrant of the epoch claimed is held. -/
def Par.takeWarrant (p : Par) : Par := { p with epoch := p.claim, highest := max p.highest p.claim, holds := true }

/-- The claim is in force: the Warrant is held, and the epoch is journalled (R369, R425). -/
def State.takeWarrant (s : State) : State := (s.mapPar Par.takeWarrant).journalEpoch

/-- A renewal after a swap: the LEASE that the swap brought applies from it on (R86). -/
def Par.renewLease (p : Par) : Par := { p with lease := p.leaseDue.getD p.lease, leaseDue := none }

/-! ## Roles (R365) -/

/-- A role entered. At a change the pair manager writes the TLR_SETEV bit of PAR_CFG; a unit that is not a standby keeps
TIM_SLEW.EN at 0 (R38). -/
def State.setRole (s : State) (r : Role) : State :=
  if s.par.role = r then s
  else
    let s1 := (s.mapPar fun p =>
        { p with role := r, seekSince := if r = .seeking then s.tim.now else p.seekSince, gridSet := p.gridSet && r == .standby
                 sync := p.sync && r == .standby, timeLocked := p.timeLocked && r == .standby }).mapTim fun t =>
      if r = .standby then t else { t with slew := clearBit t.slew 16, slewAcc := 0 }
    if bit s.par.cfg 5 then s1.raise 9 (field s.par.cfg 4 0) else s1

/-- Every lane leaves what it ran. -/
def State.dropRuns (s : State) : State := forRange 16 (fun n s => s.endRun n) s

/-- Ready tasks wait again: nothing dispatches. -/
def Teller.empty (t : Teller) : Teller :=
  { t with
    ready := List.replicate 16 [], flows := []
    tasks := t.tasks.map fun k => if k.st == .ready then { k with st := .waiting } else k }

/-- The Warrant is lost: no further jobs run, no frame is launched, the stations are another unit's, and no Escrow is sent
(R376, R378). -/
def State.stepDown (s : State) : State :=
  let s1 : State := { s.dropRuns with
    ports := s.ports.map fun q => { q with pos := List.replicate 16 Position.reset, reported := [], txq := [], timedQ := [], discMsgs := [] }
    stations := s.stations.map fun t => { t.gone with stale := false } }
  (s1.mapTeller Teller.empty).mapPar fun p =>
    { p with
      holds := false, yields := false, takeStep := .none, claimAt := none, txK := none, tx := [], dirtyIds := []
      dirtyLines := [], sentTasks := [], sentLists := [], sentPorts := [], txFrames := [] }

/-- STANDBY where the mirror link is up, and SEEKING otherwise. -/
def State.lesserRole (s : State) : Role := if s.par.link then .standby else .seeking

/-- A port of the active Charter has link up. -/
def State.lineUp (s : State) : Bool :=
  match s.cht.active with
  | some c => c.ports.any fun r => (s.port r.port).linkUp
  | none => false

/-- The role after a link has come or gone: a unit of a pair with no mirror lane up and no link up on a port of the Charter is
ISOLATED; it seeks again once a link is up (R365). Log 49 (DEDUCED). -/
def State.reviewRole (s : State) : State :=
  match s.cht.active with
  | none => s
  | some c =>
    if !c.pair then s
    else
      let cut := !s.par.link && !s.lineUp
      if cut && s.par.role != .isolated then (s.stepDown).setRole .isolated
      else if !cut && s.par.role == .isolated then s.setRole .seeking
      else s

end Sys2Proof.Machine
end

