-- ==== Sys2Proof/Machine/Tabna.lean ====
section
/-!
DEFINITION. Tabna lines (12_tabna_lines): the launch of issue frames and discovery frames, the judging of return slots and
the writing of good ones into the axis pages, upstream messages, link alignment, and the instant RETURN_DUE.
-/
namespace Sys2Proof.Machine
open Sys2Proof

/-! ## Alignment and rate (R305, R324) -/

/-- The rate change that was announced: the port changes and sends idle ordered sets until it is aligned again.
Log 76 (DEDUCED). -/
def Port.changeRate (q : Port) : Port :=
  if q.rateDue then { q with rate := q.rateTo, rateDue := false, linkUp := false } else q

/-- Adaptation sets CTLE and DFE1 while EQ_HOLD is 0; the values are free (R302). Log 98 (DESIGN CHOICE). -/
def Port.adapt (q : Port) (v : Word64) : Port :=
  if bit q.ctrl 1 then q else { q with eq := (q.eq &&& 0xFFFFC0E0) ||| (v.setWidth 32 &&& 0x3F1F) }

/-- A port becomes aligned: the stations of its line are counted afresh. An SFP module that passes the signal is present and reports
no loss (R302, R305, R307). Log 73 (DEDUCED). -/
def Port.align (q : Port) (v : Word64) : Port :=
  if q.linkUp then q
  else ({ q with
    linkUp := true, lineN := 0, evt := setBit q.evt 1, sfpPresent := q.medium || q.sfpPresent
    sfpLos := !q.medium && q.sfpLos } : Port).adapt v

/-- LINK_ALIGN: a receiver is aligned. -/
def execLinkAlign (rx : Receiver) (s : State) : Host.Outcome State Fault Refusal :=
  match rx with
  | .port p => .next ((s.mapPort p fun q => q.changeRate.align s.free).drawn 1).reviewRole
  | .mirror l => .next (s.mapPar fun a => { a with mir := putAt a.mir l true })

/-- A port loses its alignment. What an SFP module then shows at MOD_ABS and LOS is free. Log 98 (DESIGN CHOICE). -/
def Port.lose (q : Port) (v : Word64) : Port :=
  { q with
    linkUp := false, reported := [], evt := setBit q.evt 0, sfpPresent := if q.medium then bit v 0 else q.sfpPresent
    sfpLos := if q.medium then bit v 1 else q.sfpLos }

/-- LINK_LOSS: four invalid code groups among 16 have ended the alignment. -/
def execLinkLoss (rx : Receiver) (s : State) : Host.Outcome State Fault Refusal :=
  match rx with
  | .port p =>
    if (s.port p).linkUp then
      .next ((((s.mapPort p fun q => q.lose s.free).drawn 1).symErrors p 4).reviewRole)
    else .next s
  | .mirror l => .next (s.mapPar fun a => { a with mir := putAt a.mir l false })

/-! ## Upstream messages (R319, R323, R345, R346, R362) -/

/-- A message from the station at a position, whose number it names. Log 71 (DEDUCED). -/
def State.upKind (s : State) (p n num : Nat) (m : Msg) : State :=
  match m.kind with
  | 0x05 => s.slotAck p n num ((m.payload.getD 0 0).toNat + (m.payload.getD 1 0).toNat * 2 ^ 32)
  | 0x12 => s.paramResp p n num m
  | 0x30 => s.upload p m
  | k => s.violate p n 6 (BitVec.ofNat 32 k)

/-- A message in the upstream window of position n, whose station number is given: one whose CRC fails is dropped, one of
an unused number is unsolicited, and one that names another station is babble. Log 71 (DEDUCED). -/
def State.upMessage (s : State) (p n num : Nat) (m : Msg) : State :=
  let s0 := s.mapPort p fun q => { q with acyRx := q.acyRx + BitVec.ofNat 32 (6 + 4 * m.payload.length) }
  if !m.crcOk then s0.mapPort p fun q => { q with crcErr := q.crcErr + 1, evt := setBit q.evt 6 }
  else if 0x200 ≤ m.station ∧ m.station < 0x3FF then s0.violate p n 6 (BitVec.ofNat 32 m.kind)
  else if m.station ≠ num then s0.violate p n 9 0
  else s0.upKind p n num m

/-- A message that comes by itself from the station it names. One whose CRC fails, or whose station no position of the port
holds, is discarded as well: the one is counted, the other is unsolicited, of the port. Log 71 (DEDUCED). -/
def State.upAlone (s : State) (p : Nat) (m : Msg) : State :=
  match (s.port p).posOf m.station with
  | some n => s.upMessage p n m.station m
  | none =>
    let s0 := s.mapPort p fun q => { q with acyRx := q.acyRx + BitVec.ofNat 32 (6 + 4 * m.payload.length) }
    if !m.crcOk then s0.mapPort p fun q => { q with crcErr := q.crcErr + 1, evt := setBit q.evt 6 }
    else s0.countPort p 6 (BitVec.ofNat 32 m.kind)

/-- SLOT_ACK of a station (R323). -/
def execSlotAck (port station effective : Nat) (s : State) : Host.Outcome State Fault Refusal :=
  match (s.port port).posOf station with
  | some n => .next (s.slotAck port n station effective)
  | none => .next s

/-- PARAM_RESP: the answer to a PARAM request outstanding; any other is unsolicited (R319). Log 72 (DEDUCED). -/
def execParamResp (port : Nat) (msg : Msg) (s : State) : Host.Outcome State Fault Refusal :=
  if msg.kind = 0x12 then .next (s.upAlone port msg) else .next s

/-- ACQ_DATA: a station's own recorded data (R362). -/
def execAcqData (port : Nat) (msg : Msg) (s : State) : Host.Outcome State Fault Refusal :=
  if msg.kind = 0x30 then .next (s.upAlone port msg) else .next s

/-! ## Return slots (R91, R155, R313 to R316, R345) -/

/-- The verdict on a return slot. -/
inductive SlotFate where
  | left          -- its station holds the slot no longer: it has been suspended or sent away since the issue frame
  | missing | corrupt | badLength | late | unlocked | good
  deriving DecidableEq, Repr

/-- A slot judged: missing, of bad length where words are inserted and its CRC recomputed, corrupt, of bad length, late, with its
station unlocked, or good (R316, R91, R345, R393). Log 75 (DEDUCED). -/
def judgeSlot (r : RetSlot) (stretched inTime : Bool) (words : Nat) : SlotFate :=
  if r.fill then .missing
  else if stretched then .badLength
  else if !r.crcOk then .corrupt
  else if field (r.hdr.getD 0 0) 15 8 != words || r.body.length + 4 != words then .badLength
  else if !inTime then .late
  else if !bit (r.hdr.getD 0 0) 0 then .unlocked
  else .good

/-- A return slot that is not received. -/
def noSlot : RetSlot := { fill := true, crcRx := 0, babble := false, lastNs := 0, hdr := [], body := [], msgs := [] }

/-- A raw form of a station channel goes through the decoder into the record of a role (R238, R239). -/
def State.rawForm (s : State) (a : Nat) (load : Bool) (caps : Word) (raw : List Word) : State :=
  let ch := (s.axis a).chan load
  let kind := field ch.ssiCfg 8 7
  let (c1, rec1) := ch.decode raw (decide (3 ≤ kind) || bit caps (13 + kind))
  let s1 := (s.mapAxis a fun x => x.setChan load c1).writeRecord a load rec1
  s1.setPageBit a 4 (if load then 2 else 1) (bit (rec1.getD 1 0) 4)

/-- The axis record of an axis written into its page (R155, R315). -/
def State.axisRecord (s : State) (r : AxisRec) (caps : Word) (ws : List Word) : State :=
  let a := r.axis
  let s1 := (s.setPage a 0 (ws.getD 0 0 &&& 0xFF07)).setPageBit a 4 0 false
  let raw := fun (s : State) (ws : List Word) => if isLocal r.primary then s else s.rawForm a false caps ws
  match r.mode with
  | 0 => raw ((s1.setPage a 8 (ws.getD 1 0)).setPage a 0xC (ws.getD 2 0)) (ws.drop 3)
  | 1 => raw (s1.setPage a 0x10 (ws.getD 1 0 &&& 0xFFFF)) (ws.drop 2)
  | _ => s1

/-- The axis records of a slot, in axis-slot order; the words that follow them. -/
def State.axisRecords (s : State) (caps : Word) : List AxisRec → List Word → State × List Word
  | [], ws => (s, ws)
  | r :: t, ws =>
    let n := returnRecWords r.mode
    (s.axisRecord r caps (ws.take n)).axisRecords caps t (ws.drop n)

/-- The load records of a slot, in axis-number order. -/
def State.loadRecords (s : State) (caps : Word) : List AxisRec → List Word → State
  | [], _ => s
  | r :: t, ws => (s.rawForm r.axis true caps (ws.take 5)).loadRecords caps t (ws.drop 5)

/-- A station begins to report HOLD_OFF: its axes start under R152 (R370, R371). -/
def State.holdOff (s : State) (c : Charter) (num : Nat) (on : Bool) : State :=
  let t := s.station num
  if !on then s.mapStation num fun t => { t with holdOff := false, holdFrom := none }
  else
    let s1 := s.mapStation num fun t => { t with holdOff := true, holdFrom := some (t.holdFrom.getD s.cyc.k) }
    if t.holdFrom.isSome then s1
    else forEach (c.axesOf num) (fun (r : AxisRec) (s : State) => s.mapAxis r.axis fun a =>
      { a with run := { a.run with holdStart := true } }) s1

/-- A good slot: its records go into the pages, its header into the station. -/
def State.useSlot (s : State) (c : Charter) (p n num : Nat) (r : RetSlot) : State :=
  let caps := ((s.port p).at n).caps
  let k := s.cyc.k
  let h0 := r.hdr.getD 0 0
  let h1 := r.hdr.getD 1 0
  let (s1, ws) := s.axisRecords caps (c.returnAxes num k) r.body
  let io := match c.slot? num with
    | some sl => sl.io
    | none => false
  let s2 := s1.loadRecords caps (c.returnLoads num k) (if io then ws.drop 2 else ws)
  let s3 := s2.mapStation num fun t =>
    { t with
      locked := bit h0 0, ready := bit h0 1, evtLate := bit h0 3, stale := false, cutUi := field h1 15 0
      credit := min (t.credit + field h0 23 16) (field caps 23 16), din := if io then ws.getD 0 0 else t.din }
  (s3.holdOff c num (bit h0 2)).mapPort p fun q => { q with upReq := putAt q.upReq (n - 1) (field h1 23 16) }

/-- The slot of a station is not used in its cycle: axes and load records keep the previous sample, flagged, and its UP_REQ
has not come (R91, R155, R321). -/
def State.skipSlot (s0 : State) (c : Charter) (num : Nat) : State :=
  let k := s0.cyc.k
  let s := match c.slot? num with
    | some sl => s0.mapPort sl.port fun q => match q.posOf num with
      | some n => { q with upReq := putAt q.upReq (n - 1) 0 }
      | none => q
    | none => s0
  let s1 := forEach (c.returnAxes num k) (fun (r : AxisRec) (s : State) => s.setPageBit r.axis 4 0 true) s
  let s2 := forEach (c.returnLoads num k) (fun (r : AxisRec) (s : State) => s.setPageBit r.axis 4 2 true) s1
  s2.mapStation num fun t => { t with stale := true }

/-- Missing slots in consecutive sample cycles of a station are counted (R342). -/
def State.countMissing (s : State) (c : Charter) (num : Nat) (missing : Bool) : State :=
  if c.stationSamples num s.cyc.k then
    s.mapStation num fun t => { t with missing := if missing then t.missing + 1 else 0 }
  else s

/-- One slot of a return frame, with its answer. A station that its third missing slot makes absent is charged with nothing (R345,
R347). -/
def State.takeSlot (s : State) (c : Charter) (p n num : Nat) (r : RetSlot) (f : SlotFate) : State :=
  let s0 := s.countMissing c num (f == .missing)
  let s1 := if r.babble && !decide (3 ≤ (s0.station num).missing) then s0.violate p n 9 0 else s0
  let un := fun (s : State) => s.skipSlot c num
  match f with
  | .left => un s
  | .missing => un (s1.mapPort p fun q => { q with missing := q.missing + 1, evt := setBit q.evt 5 })
  | .corrupt =>
    (un (s1.mapPort p fun q => { q with crcErr := q.crcErr + 1, evt := setBit q.evt 3 })).violate p n 1
      (r.crcRx.setWidth 32)
  | .badLength =>
    (un (s1.mapPort p fun q => { q with lenErr := q.lenErr + 1, evt := setBit q.evt 4 })).violate p n 2
      (BitVec.ofNat 32 (field (r.hdr.getD 0 0) 15 8))
  | .late =>
    (un (s1.mapCyc fun y => { y with latePorts := setBit y.latePorts p, evt := setBit y.evt 2 })).violate p n 3 0
  | .unlocked => (un s1).violate p n 10 0
  | .good => forEach r.msgs (fun m s => s.upMessage p n num m) (s1.useSlot c p n num r)

/-- Messages of a window are taken whatever became of the slot before it, but for one that never came. -/
def State.slotMessages (s : State) (p n num : Nat) (r : RetSlot) (f : SlotFate) : State :=
  if f = .missing ∨ f = .good ∨ f = .left then s else forEach r.msgs (fun m s => s.upMessage p n num m) s

/-- RETURN_DUE of a port in a cycle, in the timescale of R37. -/
def State.dueAt (s : State) (c : Charter) (p : Nat) : Nat :=
  s.cyc.tk + (match c.port? p with | some r => r.returnDue | none => 0)

/-- Arrival of the last symbol of a slot at the frame checks: the perturbations delay it (R393). -/
def State.slotArrival (s : State) (p j : Nat) (r : RetSlot) : Nat :=
  r.lastNs + s.ptb.delayOf p + s.ptb.stretchBefore p j * (s.port p).tc

/-- The position of a station that holds a slot in the return frame of sample cycle k. -/
def Port.slotOf (q : Port) (num k : Nat) : Option Nat :=
  ((q.slotPositions k).find? fun e => e.2.station == some num).map fun e => e.1

/-- The slots of the sample cycle in hand with what came in them: index, position, station and verdict. A slot that a perturbation
discards is missing with all that stands in it (R393). Log 75 (DEDUCED). -/
def State.judgeFrame (s : State) (c : Charter) (p : Nat) (slots : List RetSlot) :
    List (Nat × Nat × Nat × RetSlot × SlotFate) :=
  let q := s.port p
  (indexed q.retSlots).filterMap fun e =>
    let j := e.1
    (c.slot? e.2).map fun sl =>
      let r := if s.ptb.drops p j then noSlot else slots.getD j noSlot
      let inTime := !q.returned && decide (s.slotArrival p j r ≤ s.dueAt c p)
      match q.slotOf e.2 s.cyc.k with
      | some n => (j, n, e.2, r, judgeSlot r (s.ptb.stretchOf p j != 0) inTime (c.returnWords sl s.cyc.k))
      | none => (j, 0, e.2, noSlot, .left)

/-- The turnarounds of a return frame give the hop delays: of the pair of the issue frame of cycle k − 1, if it was launched,
and a return frame of cycle k whose header is good (R318). -/
def State.hopDelays (s : State) (p : Nat) (f : RetFrame) (l : List (Nat × Nat × Nat × RetSlot × SlotFate)) : State :=
  let q := s.port p
  if !f.hdrOk || f.cycle != s.cyc.k % 2 ^ 32 || !q.launched || s.ptb.dropOf p == 1 then s
  else
    let read : Nat → HopRead := fun i =>
      match l.find? fun e => e.2.1 == i + 1 with
      | some (_, _, _, r, v) =>
        if v = .missing ∨ v = .corrupt then none
        else some (turnaround (r.hdr.getD 3 0).toNat (r.hdr.getD 2 0).toNat, field (r.hdr.getD 1 0) 15 0)
      | none => none
    s.mapPort p fun q =>
      hopValues true q 1 (some (turnaround f.rarrUi q.launchUi, 0)) ((List.range 16).map read)

/-- The return-arrival event of a port, once in a cycle (R91). -/
def State.returnEvent (s : State) (p : Nat) : State :=
  if (s.port p).returned then s
  else (s.mapPort p fun q => { q with returned := true }).raise 2 p s.cyc.k

/-- A return frame of the cycle in hand; of one that a perturbation discards whole nothing is judged but that it is missing (R393). -/
def State.returnFrame (s : State) (c : Charter) (p : Nat) (f : RetFrame) : State :=
  let l := s.judgeFrame c p f.slots
  let all := l.all fun e =>
    e.2.2.2.2 == .left || (e.2.2.2.2 != .missing && decide (s.slotArrival p e.1 e.2.2.2.1 ≤ s.dueAt c p))
  let s1 := if f.hdrOk || s.ptb.dropOf p == 1 then s
    else s.mapPort p fun q => { q with crcErr := q.crcErr + 1, evt := setBit q.evt 3 }
  let s2 := s1.hopDelays p f l
  let s3 := forEach l (fun e s => (s.takeSlot c p e.2.1 e.2.2.1 e.2.2.2.1 e.2.2.2.2).slotMessages p e.2.1 e.2.2.1 e.2.2.2.1
    e.2.2.2.2) s2
  let s4 := s3.mapPort p fun q => { q with judged := true }
  if all && !l.isEmpty && (c.port? p).isSome then s4.returnEvent p else s4

/-- RETURN_FRAME: what is received upstream on a port. The return of the last reduced sample is not used; a rate change
that was announced follows it (R316, R324, R410). -/
def execReturnFrame (port : Nat) (frame : RetFrame) (s : State) : Host.Outcome State Fault Refusal :=
  if !(s.port port).linkUp then .next s
  else
    let s1 := (s.symErrors port frame.symErrs).mapPort port fun q => { q with rarrUi := frame.rarrUi, lenReturn := frame.len }
    if !frame.due then .next (s1.strayFrame port)
    else
      let s2 := match s.charter with
        | some c =>
          if s.cht.phase == StartPhase.toT0 || s.cyc.service == 0 || !s.cyc.sampled || (s.port port).judged then s1
          else s1.returnFrame c port frame
        | none => s1
      .next (s2.mapPort port Port.changeRate).reviewRole

/-- RETURN_DUE of a port: its event is raised whether or not every slot has come, and slots that have not come leave their
axes stale (R91). Log 1 (DESIGN CHOICE). -/
def execReturnDue (port : Nat) (s : State) : Host.Outcome State Fault Refusal :=
  match s.charter with
  | none => .next s
  | some c =>
    let q := s.port port
    if (c.port? port).isNone || s.cyc.service == 0 || s.cht.phase == .toT0 || !s.cyc.sampled || q.returned then .next s
    else
      let s1 := if q.judged then s
        else forEach q.retSlots (fun num s => s.skipSlot c num) s
      .next (s1.returnEvent port)

/-- Return frames that have not come by the clearing point of their cycle: every slot is missing. Log 100 (DEDUCED). -/
def State.missReturns (s : State) (c : Charter) : State :=
  forRange 32 (fun p s =>
    if (s.port p).judged then s
    else forEach (s.judgeFrame c p []) (fun e s => s.takeSlot c p e.2.1 e.2.2.1 e.2.2.2.1 (if e.2.2.2.2 == .left then .left else .missing))
      (s.mapPort p fun q => { q with judged := true })) s

/-! ## The medium (R302) -/

/-- The medium of a port as its PORT record gives it. What an SFP module shows at MOD_ABS and LOS before its port is aligned
is free. Log 98 (DESIGN CHOICE). -/
def Port.setMedium (q : Port) (sfp : Bool) (v : Nat) : Port :=
  if q.medium == sfp then q
  else { q with
    medium := sfp, sfpPresent := sfp && (q.linkUp || v % 2 == 1), sfpLos := sfp && !q.linkUp && v / 2 % 2 == 1 }

/-- The ports take the MEDIUM of the PORT records of a Charter that enters force. -/
def State.setMedia (s : State) (c : Charter) : State :=
  let new := fun (p : Nat) (q : Port) => match c.port? p with
    | some r => (r.medium == 1) != q.medium
    | none => false
  if (indexed s.ports).any fun e => new e.1 e.2 then
    ({ s with ports := (indexed s.ports).map fun e => match c.port? e.1 with
      | some r => e.2.setMedium (r.medium == 1) (s.free.toNat / 4 ^ e.1)
      | none => e.2 } : State).drawn 1
  else s

/-! ## Issue frames (R310 to R312, R319 to R324, R393, R462) -/

/-- Output words of the axis records of a station in the issue frame after the clearing point of cycle k. Under BRAKE and
PASS of reduced service the records command nothing, and LOCAL under PASS (R408). -/
def State.issueRecs (s : State) (c : Charter) (sl : SlotRec) (q : Position) (next : Nat) : List (Word × Word) :=
  if s.reduced && s.cht.phase != StartPhase.toT0 && sl.policy != 0 then
    List.replicate (field q.caps 4 0) (0, if sl.policy = 2 then 0x40000 else 0)
  else ((c.stationAxes sl.station).filter fun r => c.sampleAt r next).map fun r =>
    ((s.axis r.axis).out0, (s.axis r.axis).out1)

/-- The issue slot of a position. -/
def State.issueSlot (s : State) (c : Charter) (p next : Nat) (e : Nat × Position) : Option IssueSlot :=
  match e.2.station.bind c.slot? with
  | none => none
  | some sl =>
    let t := s.station sl.station
    some { station := sl.station, terminate := (s.port p).terminate == e.1
           dUi := BitVec.ofInt 32 ((s.port p).delay e.1 + s.ptb.skewOf p (s.primaryPos p e.1)), recs := s.issueRecs c sl e.2 next
           io := if sl.io then some (t.dout, t.doutEn) else none }

/-- Characters of an issue slot with its CRC. -/
def IssueSlot.chars (x : IssueSlot) : Nat := 10 + 8 * x.recs.length + (if x.io.isSome then 8 else 0)

/-- Bytes of a message with its CRC. -/
def TxMsg.bytes (m : TxMsg) : Nat := 6 + 4 * m.payload.length

/-- The timed events of a frame, deferred ones first, then in order of their units; those that are sent, and those that are
deferred: beyond the first 64 bytes or the room there is, and beyond 8 pending at a station (R322). -/
def pickTimed (pending : Nat → Nat) (room : Nat) : List TimedEvt → List TimedEvt → List TimedEvt → List TimedEvt × List TimedEvt
  | [], sent, kept => (sent, kept)
  | e :: t, sent, kept =>
    let here := (sent.filter fun x => x.station == e.station).length
    if 18 * (sent.length + 1) ≤ room ∧ pending e.station + here < 8 ∧ kept.all (fun x => x.station != e.station) then
      pickTimed pending room t (sent ++ [e]) kept
    else pickTimed pending room t sent (kept ++ [{ e with deferred := true }])

/-- Timed events in the order in which they stand. -/
def orderTimed (l : List TimedEvt) : List TimedEvt :=
  let new := l.filter fun e => !e.deferred
  l.filter (fun e => e.deferred) ++ (List.range 32).flatMap fun u => new.filter fun e => e.unit == u

/-- The messages of a frame within its room and the credits of their stations, in order for each station (R319, R320). -/
def pickMsgs (credit : Nat → Nat) (room : Nat) : List TxMsg → List TxMsg → List TxMsg → List TxMsg × List TxMsg
  | [], sent, kept => (sent, kept)
  | m :: t, sent, kept =>
    let used := sent.foldl (fun n x => n + x.bytes) 0
    let units := fun (x : TxMsg) => (x.bytes + 15) / 16
    let spent := (sent.filter fun x => x.station == m.station).foldl (fun n x => n + units x) 0
    let fits := decide (used + m.bytes ≤ room) && kept.all (fun x => x.station != m.station)
      && (m.station == 0x3FF || decide (spent + units m ≤ credit m.station))
    if fits then pickMsgs credit room t (sent ++ [m]) kept else pickMsgs credit room t sent (kept ++ [m])

/-- A position of the port is in FOUND, IDENTIFIED, TIMING or CONFIGURING. -/
def Port.enrolling (q : Port) : Bool :=
  q.pos.any fun x => x.st == .found || x.st == .identified || x.st == .timing || x.st == .configuring

/-- A discovery frame is due after the issue frame of base cycle k (R333). -/
def State.discDue (s : State) (p k : Nat) : Bool :=
  let q := s.port p
  bit s.dsc.ctrl 0 && q.linkUp && !q.stopped && (k % 8 == 0 || q.enrolling)

/-- Characters left for an area of a frame: the whole frame with its idle gap within T, or with the discovery frame that
follows it (R325, R332). Log 77 (DEDUCED). -/
def areaRoom (period tc base disc : Nat) (due : Bool) : Nat :=
  if due then (period - 32) / tc - (base + 16 + disc) else period / tc - (base + 16)

/-- What is sure to be granted to the stations that ask, in their turn: min(UP_REQ, 4) units each, until the next one's do not
fit; the room that is left. -/
def grantFirst (req : Nat → Nat) : List Nat → Nat → List (Nat × Nat) × Nat
  | [], room => ([], room)
  | n :: t, room =>
    let g := min (req n) 4
    if room < g then ([], room)
    else
      let (l, left) := grantFirst req t (room - g)
      ((n, g) :: l, left)

/-- What is left of the room, to the stations that ask for more, in their turn. -/
def grantMore (req : Nat → Nat) (first : List (Nat × Nat)) : List Nat → Nat → List (Nat × Nat)
  | [], _ => []
  | n :: t, room =>
    let has := ((first.find? fun e => e.1 == n).map fun e => e.2).getD 0
    let g := min (min (req n) 255 - has) room
    (n, has + g) :: grantMore req first t (room - g)

/-- Grants to the stations that ask, round robin, in units of 16 bytes, and the station served last: the turn goes on from the
one that could not be given its min(UP_REQ, 4), or, where there was no room for that of any, from the one after those that shared
what there was, so that each comes first within 16 cycles (R321). Log 77 (DEDUCED). -/
def grantTo (ring : List Nat) (req : Nat → Nat) (room last : Nat) : List (Nat × Nat) × Nat :=
  let (first, left) := grantFirst req ring room
  let all := grantMore req first ring left
  let turn := fun (l : List (Nat × Nat)) => ((l.filter fun e => decide (0 < e.2)).getLast?).map fun e => e.1
  (all, (turn first).getD ((turn all).getD last))

/-- The time of the launch of a port's issue frame, in the timescale of R37: before t(k+1) by ISSUE_LEAD, or by L_max on a
port without a PORT record (R310, R462). -/
def launchTime (c : Charter) (p apply : Nat) : Nat :=
  apply - (match c.port? p with | some r => r.issueLead | none => c.lMax)

/-- SLOT_CONFIG of configurations not acknowledged is repeated every 64 base cycles (R323), of stations in enrolment while
DSC_CTRL.RUN is 1 (R347). -/
def State.repeatConfigs (s : State) (c : Charter) (p : Nat) : State :=
  forRange 16 (fun i s =>
    let q := (s.port p).at (i + 1)
    match (if q.st == .configuring && !bit s.dsc.ctrl 0 then none else q.station) with
    | some num =>
      let wait := !q.acked && decide (q.sentAt + 64 ≤ s.cyc.k)
      let kept := s.cht.keptWait.contains num && s.reduced
      if wait && kept && q.effective == 0 then
        match s.cht.active with
        | some c' => s.sendConfig c' p (i + 1) num 0
        | none => s
      else if wait && decide (s.cyc.k < q.effective) && (q.st == .configuring || q.st == .bound) then
        let c' := match s.cht.armedAt, s.cht.staged with
          | some a, some st => if a < q.effective then st else c
          | _, _ => c
        s.sendConfig c' p (i + 1) num q.effective
      else s
    | none => s) s

/-- The issue frame of a port formed and launched: cycle field, apply instant and the cycle whose sample its outputs meet.
While the link engines do not run, its cyclic parts go as usual and its acyclic area is fill (R16, R327). Log 78 (DEDUCED). -/
def State.launchFrame (s : State) (c : Charter) (p cycle apply next : Nat) (lead : Bool) : State :=
  let red := s.reduced && !lead
  let rate1 := decide (s.cht.phase = .waitTs) && decide (apply = s.cht.tS) && red
  let s0 := if lead || !s.bst.linkRun then s else s.repeatConfigs c p
  let s1 := if rate1 then s0.mapPort p fun q => { q with rateCount := 1, rateTo := true } else s0
  let q := s1.port p
  let inCharter := (c.port? p).isSome
  let posns := if inCharter then q.slotPositions next else []
  let slots := posns.filterMap fun e => s1.issueSlot c p next e
  let names := posns.filter fun e => (e.2.station.bind c.slot?).isSome
  let base := slots.foldl (fun n x => n + x.chars) (issueHeadChars slots.length) + 1
  let due := !lead && s.bst.linkRun && s1.discDue p cycle
  let period := if red then 250000 else c.period
  let rm := if inCharter && s.bst.linkRun then areaRoom period q.tc base 468 due else 0
  let rateMsg : List TxMsg := if q.rateCount = 0 then []
    else [{ station := 0x3FF, cell := false, kind := 0x04
            payload := [BitVec.ofNat 32 (q.rateCount + flagAt q.rateTo 8), 0] }]
  let live := fun (st : Nat) => ((s1.station st).timed.filter fun tc => decide (s.time < tc)).length
  let (sent, kept) := pickTimed live (min 64 rm) (orderTimed q.timedQ) [] []
  let rm1 := rm - 18 * sent.length
  let (msgs, left) := pickMsgs (fun st => (s1.station st).credit) rm1 (rateMsg ++ q.txq) [] []
  let acy := 18 * sent.length + msgs.foldl (fun n m => n + m.bytes) 0
  let rlen := names.map fun e => match e.2.station.bind c.slot? with
    | some sl => c.returnWords sl next
    | none => 0
  let retBase := rlen.foldl (fun n w => n + 4 * w + 2) returnHeadChars + 1
  let ask := fun (n : Nat) => q.upReq.getD (n - 1) 0
  let ring := (names.map fun e => e.1).filter (fun n => q.grantNext < n)
    ++ (names.map fun e => e.1).filter fun n => n ≤ q.grantNext
  let (grants, turn) := if lead || !s.bst.linkRun then ([], q.grantNext)
    else grantTo ring ask (areaRoom period q.tc retBase 788 due / 16) q.grantNext
  let grantOf := fun (n : Nat) => ((grants.find? fun g => g.1 == n).map fun g => g.2).getD 0
  let at1 := launchTime c p apply
  let lease := if red || s.par.role == .single then 8 else s.par.renewLease.lease
  let gv := names.map fun e => grantOf e.1
  let vec := (rlen ++ gv).map fun v => BitVec.ofNat 8 v
  let word := fun (i : Nat) => (vec.getD (4 * i + 3) 0 ++ vec.getD (4 * i + 2) 0 ++ vec.getD (4 * i + 1) 0
    ++ vec.getD (4 * i) 0 : Word)
  let hdr : List Word :=
    [BitVec.ofNat 32 (1 + flagAt red 8 + flagAt (c.pair && !red) 9 + slots.length * 2 ^ 16), BitVec.ofNat 32 cycle]
      ++ twoWords at1 ++
    [BitVec.ofNat 32 (acy * 2 ^ 16), BitVec.ofNat 32 apply, BitVec.ofNat 32 period, BitVec.ofNat 32 s.par.epoch,
     BitVec.ofNat 32 (s.ptb.leaseOf lease + flagAt s.par.unit 8)] ++ (List.range ((vec.length + 3) / 4)).map word
  let wire := withCrc hdr ++ slots.flatMap (fun x => withCrc x.words) ++ sent.flatMap (fun e => e.msg.wire)
    ++ msgs.flatMap TxMsg.wire
  let s2 := s1.mapPort p fun q =>
    { q with
      launched := true, launchUi := 5 * at1, lenIssue := base + acy, acyTx := q.acyTx + BitVec.ofNat 32 acy
      frame := some { hdr := hdr, rlen := rlen, grant := gv, slots := slots, timed := sent, msgs := msgs, len := base + acy,
                      wire := wire }
      timedQ := kept, txq := left.filter (fun m => m.kind != 0x04), rlenHist := (rlen :: q.rlenHist).take 8
      grant := (List.range 16).map fun i => grantOf (i + 1)
      grantNext := turn
      rateCount := if msgs.any (fun m => m.kind == 0x04) then q.rateCount - 1 else q.rateCount
      rateDue := q.rateDue || (msgs.any (fun m => m.kind == 0x04) && q.rateCount == 1)
      evt := if kept.isEmpty then q.evt else setBit q.evt 7 }
  let s3 := forEach sent (fun (e : TimedEvt) (s : State) => s.mapStation e.station fun t =>
    { t with timed := (t.timed.filter fun tc => decide (s.time < tc)) ++ [e.tc] }) s2
  let s4 := forEach msgs (fun (m : TxMsg) (s : State) => if m.station = 0x3FF then s else s.mapStation m.station fun t =>
    { t with credit := t.credit - (m.bytes + 15) / 16 }) s3
  let s5 := s4.mapPar Par.renewLease
  if s.par.claimAt == some cycle then s5.mapPar fun a => { a with evt := setBit a.evt 0 } else s5

/-- The Charter under which issue frames are sent: the lead-in frame is the active Charter's (R410). -/
def State.lineCharter (s : State) : Option Charter := if s.cht.phase == .toT0 then s.cht.active else s.charter

/-- The Charter whose slot layouts the frame of the cycle just cleared carries: the one in force, but for a claim frame of the
cycle of a swap, which carries those of the outgoing one (R382). -/
def State.frameCharter (s : State) (c : Charter) : Charter :=
  match s.cht.outgoing with
  | some o => if o.cycle + 1 == s.cyc.k && s.par.claimAt == some o.cycle then o.charter else c
  | none => c

/-- ISSUE_LAUNCH: a port launches the issue frame that the clearing point just passed released; a unit launches only
while it holds the Warrant. Before t(0) of full service it is the lead-in frame (R310, R364, R376, R410, R462). -/
def execIssueLaunch (port : Nat) (s : State) : Host.Outcome State Fault Refusal :=
  let q := s.port port
  match s.lineCharter with
  | none => .next s
  | some c =>
    let lead := s.cht.phase == .toT0
    let ready := if lead then !s.cyc.frozen else s.cyc.service != 0 && !s.cyc.sampled && s.cyc.k != 0
    let sends := (c.port? port).isSome || (q.linkUp && (lead || !s.reduced))
    if !ready || !sends || !s.par.holds || q.launched || q.stopped || s.ptb.dropOf port == 3 then .next s
    else
      let s1 := s.mapPort port Port.changeRate
      if lead then .next (s1.launchFrame c port 0xFFFFFFFF s.cht.t0 0 true).reviewRole
      else .next (s1.launchFrame (s.frameCharter c) port (s.cyc.k - 1) s.cyc.tk s.cyc.k false).reviewRole

/-! ## Discovery frames (R329 to R333) -/

/-- D(n) as ASSIGN carries it: from the dedicated exchanges (R41, R339). -/
def State.assignMsg (s : State) (p n num : Nat) : TxMsg :=
  { station := n, cell := true, kind := 0x22
    payload := [BitVec.ofNat 32 num, BitVec.ofInt 32 ((s.port p).delayExch n)] }

/-- The message of a position's downstream cell: one that waits, IDENT_REQ in FOUND, or ASSIGN from the end of the timing
exchanges until the station is BOUND (R336, R339). Log 69 (DEDUCED). -/
def State.cellFor (s : State) (p n : Nat) : Option TxMsg :=
  let q := s.port p
  let x := q.at n
  match q.discMsgs.find? fun m => m.station == n with
  | some m => some m
  | none =>
    if x.st == .found then
      some { station := n, cell := true, kind := 0x20, payload := [BitVec.ofNat 32 x.desc.length] }
    else match (x.st == .timing || x.st == .configuring), x.assign, x.station with
      | true, true, some num => some (s.assignMsg p n num)
      | _, _, _ => none

/-- The first message of each position taken out of the queue. -/
def dropFirst (ns : List Nat) : List TxMsg → List TxMsg
  | [] => []
  | m :: t => if ns.contains m.station then dropFirst (ns.filter fun n => n != m.station) t else m :: dropFirst ns t

/-- The discovery frame of a port launched, 16 characters after the EOF of the issue frame: its header of TYPE 0x03 and HOPS 0,
SEQ and the launch stamp, and its cells (R329). -/
def State.launchDisc (s : State) (p : Nat) : State :=
  let cells := (List.range 16).filterMap fun i => s.cellFor p (i + 1)
  let ui := (s.port p).launchUi + 5 * (s.port p).tc * ((s.port p).lenIssue + 16)
  let hdr := [BitVec.ofNat 32 (3 + ui % 5 * 2 ^ 16), (s.port p).seq + 1] ++ twoWords (ui / 5)
  let s1 := s.mapPort p fun q =>
    { q with
      seq := q.seq + 1, pendingDisc := some (q.seq + 1), discDone := true, noRoom := false, discCells := cells
      discHdr := hdr, discLaunchUi := ui
      discMsgs := dropFirst (List.range 17) q.discMsgs }
  forEach cells (fun (m : TxMsg) (s : State) => s.mapPos p m.station fun x =>
    if m.kind = 0x20 then { x with ask := some x.desc.length, askSeq := some ((s.port p).seq) }
    else if m.kind = 0x22 then { x with assignAt := some (x.assignAt.getD s.cyc.k) } else x) s1

/-- DISCOVERY_LAUNCH: a discovery frame after the issue frame of the cycle, where one is due and there is room (R332,
R333). -/
def execDiscoveryLaunch (port : Nat) (s : State) : Host.Outcome State Fault Refusal :=
  let q := s.port port
  match s.charter, q.frame with
  | some c, some f =>
    if !q.launched || q.discDone || s.cht.phase == .toT0 || !s.bst.linkRun || !s.discDue port (s.cyc.k - 1) then .next s
    else
      let period := if s.reduced then 250000 else c.period
      let ret := (f.rlen.foldl (fun n w => n + 4 * w + 2) returnHeadChars) + f.grant.foldl (fun n g => n + 16 * g) 0 + 1
      if q.tc * (f.len + 16 + 468) + 32 ≤ period ∧ q.tc * (ret + 16 + 788) + 32 ≤ period then .next (s.launchDisc port)
      else .next ((s.mapPort port fun q => { q with noRoom := true, discDone := true }).mapDsc fun d =>
        { d with evt := setBit d.evt 6 })
  | _, _ => .next s

end Sys2Proof.Machine
end

