-- ==== Sys2Proof/Machine/Charter.lean ====
section
/-!
DEFINITION. The Charter block (03_charter, R72 to R87, with R409 to R411 of 17_power_up and R463): LOAD, DISCARD, START, ARM
and DISARM, what a Charter sets as it comes into force, the treatments of a swap, and the start of full service.
-/
namespace Sys2Proof.Machine
open Sys2Proof

/-! ## Staging (R72 to R78, R258) -/

/-- A command that is not permitted: no effect, CMD_IGNORED and a code (R74, R409). Log 59 (DEDUCED). -/
def State.chtIgnored (s : State) (code : Nat := 0x20) : State :=
  s.mapCht fun t => { t with errCode := code, errDetail := 0, evt := setBit t.evt 7 }

/-- The staging bank is B where A holds the active Charter, and A otherwise (R73). -/
def Cht.stagingB (t : Cht) : Bool := t.active.isSome && !t.activeBank

/-- Words of the staging bank. -/
def Cht.stagingBank (t : Cht) : List Word := if t.stagingB then t.bankB else t.bankA

/-- The staging bank filled. -/
def Cht.fillStaging (t : Cht) (ws : List Word) : Cht := if t.stagingB then { t with bankB := ws } else { t with bankA := ws }

/-- The source of a LOAD is not refused (R76). -/
def State.sourceOk (s : State) : Bool :=
  let n := s.cht.srcLen.toNat
  s.cht.src.toNat % 4 == 0 && n != 0 && s.dramOk s.cht.src.toNat (4 * n)

/-- The words of the source. Beyond the limit of R56 one word more is enough to fail step 1. Log 66 (DESIGN CHOICE). -/
def State.sourceWords (s : State) : List Word :=
  (List.range (min s.cht.srcLen.toNat (maxCharter + 1))).map fun i => s.dramWord (s.cht.src.toNat + 4 * i)

/-- The staged copies of the RWS registers taken from those in force (R258). -/
def State.stageRws (s : State) : State :=
  { s with
    axes := s.axes.map fun a => { a with cfgSt0 := a.cfg0, cfgSt1 := a.cfg1, ssiSt0 := a.ssi0, ssiSt1 := a.ssi1 }
    io := { s.io with fb := s.io.fb.map fun p => { p with cfgSt := p.cfg } } }

/-- The RWS registers of an axis come into force; a change of FBK_AXSSI makes the next reading a first one (R236, R258). -/
def Axis.forceRws (a : Axis) : Axis :=
  { a with
    cfg0 := a.cfgSt0, cfg1 := a.cfgSt1, ssi0 := a.ssiSt0, ssi1 := a.ssiSt1
    chanFirst0 := a.chanFirst0 || a.ssi0 != a.ssiSt0, chanFirst1 := a.chanFirst1 || a.ssi1 != a.ssiSt1 }

/-- The RWS registers of the staged Charter come into force; the repeat outputs follow their ports at once (R249, R258). -/
def State.forceRws (s : State) : State :=
  forRange 16 (fun n s =>
      let p := s.fb n
      let q := p.setCfg p.cfgSt
      (s.mapFb n fun _ => q).follow n p q)
    { s with axes := s.axes.map Axis.forceRws }

/-- LOAD: a refused source copies nothing and leaves REJECTED; any other is copied into the staging bank, and the state is LOADING
until its checks begin (R74, R76). Log 66 (DESIGN CHOICE). -/
def State.chtLoad (s : State) : State :=
  if s.cht.stage ≠ .empty ∧ s.cht.stage ≠ .staged ∧ s.cht.stage ≠ .rejected then s.chtIgnored
  else
    let s1 := s.mapCht fun t => { (t.fillStaging []) with staged := none, pageWrites := [] }
    if s.sourceOk then
      (s1.mapCht fun t => { (t.fillStaging s.sourceWords) with stage := .loading }).stageRws
    else s1.mapCht fun t =>
      { t with stage := .rejected, errCode := eSource, errDetail := 0, errOffs := 0, evt := setBit t.evt 1 }

/-- LOAD. -/
def execLoad (_src : Source) (s : State) : Host.Outcome State Fault Refusal := .next s.chtLoad

/-- LOAD_COMPLETE: the checks of R78 end in STAGED or REJECTED. -/
def execLoadComplete (s : State) : Host.Outcome State Fault Refusal :=
  if s.cht.stage ≠ .loading ∧ s.cht.stage ≠ .checking then .next s
  else match validate s.srm.slots s.dramMib s.cht.stagingBank with
    | .ok c => .next (s.mapCht fun t =>
        { t with stage := .staged, staged := some c, stagedKey := c.keySlot, stagedLoad := c.loadPermille
                 stagedSafe := c.derateSafe, evt := setBit t.evt 0 })
    | .error e => .next (s.mapCht fun t =>
        { t with stage := .rejected, errCode := e.code, errDetail := 0, errOffs := BitVec.ofNat 32 e.offs
                 evt := setBit t.evt 1 })

/-- DISCARD. STAGED_LOAD and STAGED_DERATE_SAFE keep what the last Charter staged gave them. Log 103 (DESIGN CHOICE). -/
def State.chtDiscard (s : State) : State :=
  if s.cht.stage = .staged ∨ s.cht.stage = .rejected then
    s.mapCht fun t => { (t.fillStaging []) with stage := .empty, staged := none, pageWrites := [] }
  else s.chtIgnored

/-- DISCARD. -/
def execDiscard (_src : Source) (s : State) : Host.Outcome State Fault Refusal := .next s.chtDiscard

/-! ## Changes of an axis (R85) -/

/-- Everything that defines an axis: its AXIS record, chain, code, SLOT records and cycle task. -/
structure AxisDef where
  axisRec : AxisRec
  blocks : List BlockRec
  codes : List (Option CodeRec)
  slot : Option SlotRec
  loadSlot : Option SlotRec
  task : Option TaskRec
  deriving DecidableEq, Repr

/-- The definition of an axis in a Charter. Its CODE records are those of the blocks of its chain. Log 104 (DESIGN CHOICE). -/
def Charter.axisDef (c : Charter) (a : Nat) : Option AxisDef :=
  (c.axis? a).map fun r =>
    let blocks := match c.chain? a with
      | some ch => ch.blocks
      | none => []
    { axisRec := r, blocks := blocks, codes := blocks.map fun b => c.codes.find? fun k => k.id == b.id
      slot := if isLocal r.target then none else c.slot? (field r.target 8 0)
      loadSlot := if bit r.loadFb 30 && !isLocal r.loadFb then c.slot? (field r.loadFb 8 0) else none
      task := c.axisTask? a }

/-- The lines of the table *Axis changes at a swap*. -/
inductive AxisChange where
  | absent | removed | added | unchanged | rejected | params | structural
  deriving DecidableEq, Repr

/-- What of a block belongs to the chain's structure, its parameters apart. -/
def BlockRec.form (b : BlockRec) : Nat × Nat × Nat × Nat × Word := (b.id, b.inst, b.mainSrc, b.auxSrc, b.params.getD 0 0)

/-- The kind of change between two definitions. -/
def changeOf (old new : Option AxisDef) : AxisChange :=
  match old, new with
  | none, none => .absent
  | some _, none => .removed
  | none, some _ => .added
  | some o, some n =>
    if o = n then .unchanged
    else if o.axisRec.rate ≠ n.axisRec.rate ∨ o.axisRec.phase ≠ n.axisRec.phase ∨ o.axisRec.target ≠ n.axisRec.target
        ∨ o.axisRec.primary ≠ n.axisRec.primary ∨ o.slot ≠ n.slot then .rejected
    else if o.axisRec.mode ≠ n.axisRec.mode ∨ o.axisRec.source ≠ n.axisRec.source
        ∨ o.blocks.map BlockRec.form ≠ n.blocks.map BlockRec.form ∨ o.codes ≠ n.codes then .structural
    else .params

/-- The change of an axis from one Charter to another. Log 64 (DEDUCED). -/
def axisChange (old new : Charter) (a : Nat) : AxisChange := changeOf (old.axisDef a) (new.axisDef a)

/-- An axis is live while its output stage is enabled (R81). -/
def State.live (s : State) (a : Nat) : Bool := (s.axis a).run.en

/-- Axes that are live. -/
def State.liveAxes (s : State) : List Nat := (List.range 256).filter s.live

/-- The axes that go through hand-over at the swap, of those live at ARM (R85). -/
def handoverAxes (old new : Charter) (live : List Nat) : List Nat :=
  live.filter fun a => axisChange old new a == .params || axisChange old new a == .structural

/-- CHT_HANDOVER0 to 7: of the staged Charter in STAGED and ARMED; else of the last swap. -/
def State.handoverBits (s : State) : BitVec 256 :=
  match s.cht.active, s.cht.staged with
  | some o, some n =>
    (handoverAxes o n (if s.cht.stage == .armed then s.cht.armedLive else s.liveAxes)).foldl (fun w a => setBit w a) 0
  | _, _ => s.cht.handover

/-! ## Code placement (R68, R82, R144) -/

/-- Instructions of code RAM that a block takes: whole sixteens. -/
def CodeRec.slots (k : CodeRec) : Nat := (k.code.length + 15) / 16 * 16

/-- Blocks placed one after the other from an address. Log 67 (DESIGN CHOICE). -/
def placeAll : Nat → List CodeRec → List (Nat × Nat)
  | _, [] => []
  | n, k :: t => (n, k.id) :: placeAll (n + k.slots) t

/-- The first place of the code RAM that a block fits into beside those taken: from 0 or from the end of another.
Log 67 (DESIGN CHOICE). -/
def firstFit (taken : List (Nat × Nat)) (n : Nat) : Option Nat :=
  let free := fun (a : Nat) => decide (a + n ≤ 16384) && taken.all fun t => decide (a + n ≤ t.1) || decide (t.1 + t.2 ≤ a)
  (0 :: taken.map fun t => t.1 + t.2).foldl (fun best a =>
    if free a then match best with
      | some b => some (min a b)
      | none => some a
    else best) none

/-- Places of a Charter's blocks beside the code in force: a block with the same ID and code stays where it is. -/
def placeBeside (old : Charter) (placed : List (Nat × Nat)) : List CodeRec → List (Nat × Nat) → List (Nat × Nat)
    → List (Nat × Nat)
  | [], _, out => out
  | k :: t, taken, out =>
    let here := if old.codes.any (fun o => o.id == k.id && o.code == k.code) then placed.find? (fun e => e.2 == k.id) else none
    match here with
    | some e => placeBeside old placed t taken (out ++ [e])
    | none => match firstFit taken k.slots with
      | some a => placeBeside old placed t (taken ++ [(a, k.slots)]) (out ++ [(a, k.id)])
      | none => placeBeside old placed t taken out

/-- Code written into the code RAM at its places. A CALLB stands there with the block ID that it names: the spec does not say
whether the placed word shows the ID or what it was resolved to. Log 95 (DESIGN CHOICE). -/
def writeCode (m : Mem 64) (c : Charter) (places : List (Nat × Nat)) : Mem 64 :=
  places.foldl (fun m e => match c.codes.find? fun k => k.id == e.2 with
    | some k => memWriteList m e.1 k.code
    | none => m) m

/-- Bytes of the code of two Charters, each block counted once. -/
def codeOfBoth (old new : Charter) : Nat :=
  codeTotal (old.codes ++ new.codes.filter fun k => !old.codes.any fun o => o.id == k.id && o.code == k.code)

/-! ## INIT and tables (R82, R87) -/

/-- The values of an INIT record with their identifiers. -/
def InitRec.cells (r : InitRec) : List (Nat × Word) := (indexed r.values).map fun e => (r.first.toNat + e.1, e.2)

/-- Entries that INIT records give, status 0x01 and stamp 0, written into a store. -/
def initInto (m : Mem 64) (cells : List (Nat × Word)) : Mem 64 :=
  cells.foldl (fun m e => memWrite m e.1 (entry e.2 1 0)) m

/-- All INIT cells of a Charter, in stream order. -/
def Charter.initCells (c : Charter) : List (Nat × Word) := c.inits.flatMap InitRec.cells

/-- INIT contents of a group, by item. -/
def Charter.initGroup (c : Charter) (g : Nat) : Mem 64 :=
  initInto [] (c.initCells.filter fun e => e.1 / 1024 == g)

/-- Groups, as class × 1,024 + group, that an axis references: the cam words 19 and 20 in its page, and the SIG values of its
TABLE and NOTCH blocks. -/
def State.axisGroups (s : State) (c : Charter) (r : AxisRec) : List Nat :=
  let sigs := match c.chain? r.axis with
    | some ch => (ch.blocks.filter fun b => b.id == 0x0130 || b.id == 0x0200).map fun b => (b.params.getD 1 0).toNat
    | none => []
  ((s.page r.axis (0x180 + 4 * 19)).toNat :: (s.page r.axis (0x180 + 4 * 20)).toNat :: sigs).map fun id => id / 1024

/-- A group of classes 0x08 to 0x0F. -/
def tableGroup (g : Nat) : Bool := decide (8 ≤ g / 1024) && decide (g / 1024 ≤ 15)

/-- Table groups that the axes of a Charter reference. -/
def State.usedGroups (s : State) (c : Charter) : List Nat := ((c.axes.flatMap (s.axisGroups c)).filter tableGroup).eraseDups

/-! ## ARM and DISARM (R81 to R83) -/

/-- Highest rate code in use: the slowest rate. -/
def slowestRate (used : Nat) : Nat := if used.testBit 3 then 3 else if used.testBit 2 then 2 else if used.testBit 1 then 1 else 0

/-- The granule G of R81. -/
def granule (old new : Charter) : Nat := rateDiv old.baseRate (slowestRate (old.ratesUsed ||| new.ratesUsed))

/-- The first arm condition that fails, with its detail; whether the standby holds the Charter is given (R81).
Log 64 (DEDUCED). -/
def State.armFails (s : State) (old new : Charter) (standbyOk : Bool) : Option (Nat × Nat) :=
  let c := s.cht.swapAt.toNat
  let liveBad := s.liveAxes.find? fun a => axisChange old new a == .removed || axisChange old new a == .rejected
  let table := (List.range 0x4000).find? fun g =>
    tableGroup g && (s.usedGroups old).contains g && old.initGroup g != new.initGroup g
  if c < s.cyc.num + 256 then some (0x21, 0)
  else if (c + 1) % granule old new ≠ 0 then some (0x22, 0)
  else if new.baseRate ≠ old.baseRate then some (0x23, 0)
  else match liveBad, table with
    | some a, _ => some (0x24, a)
    | none, some g => some (0x25, g % 1024 + (g / 1024 - 8) * 1024)
    | none, none =>
      if 131072 < codeOfBoth old new then some (0x26, 0)
      else if s.clk.derated && !s.cht.stagedSafe then some (0x27, 0)
      else if !standbyOk then some (0x28, 0)
      else none

/-- A slot whose SLOT record or slot layout the incoming Charter changes. -/
def slotChanged (old new : Charter) (num : Nat) : Bool :=
  old.slot? num != new.slot? num || old.slotConfig num 0 != new.slotConfig num 0

/-- Positions of every port. -/
def State.everyPos (s : State) : List (Nat × Nat × Position) :=
  (indexed s.ports).flatMap fun e => (indexed e.2.pos).map fun q => (e.1, q.1 + 1, q.2)

/-- The stations of changed slots told of the swap (R82). -/
def State.tellStations (s : State) (old new : Charter) (c : Nat) : State :=
  forEach s.everyPos (fun (e : Nat × Nat × Position) (s : State) => match e.2.2.station with
    | some num =>
      if e.2.2.st == .bound && slotChanged old new num && (new.slot? num).isSome then
        s.sendConfig new e.1 e.2.1 num (c + 1)
      else s
    | none => s) s

/-- The places of an incoming Charter's blocks, beside the code in force (R82). Log 67 (DESIGN CHOICE). -/
def State.armPlaces (s : State) (old new : Charter) : List (Nat × Nat) :=
  let taken := s.cht.placed.map fun e => (e.1, match old.codes.find? fun k => k.id == e.2 with
    | some k => k.slots
    | none => 16)
  placeBeside old s.cht.placed new.codes taken []

/-- The places that ARM writes: those at which no block stands already (R82). -/
def State.armWritten (s : State) (old new : Charter) : List (Nat × Nat) :=
  (s.armPlaces old new).filter fun e => !s.cht.placed.contains e

/-- The INIT cells that ARM writes: those of table groups that no axis of the Charter in force references (R82). -/
def State.armCells (s : State) (old new : Charter) : List (Nat × Word) :=
  new.initCells.filter fun e => tableGroup (e.1 / 1024) && !(s.usedGroups old).contains (e.1 / 1024)

/-- What the device prepares between ARM and the swap: code, unreferenced INIT groups, pins, and the stations (R82, R291). -/
def State.armPrepare (s : State) (old new : Charter) : State :=
  let cells := s.armCells old new
  let s1 := { s with
    code := writeCode s.code new (s.armWritten old new)
    cht := { s.cht with prepared := s.armPlaces old new }
    ledger := { s.ledger with
      mem := initInto s.ledger.mem cells, pinLoading := !new.pins.isEmpty
      bad := s.ledger.bad.filter fun id => !cells.any fun e => e.1 == id } }
  (s1.mapPar fun p => cells.foldl (fun p e => p.dirty e.1) p).tellStations old new s.cht.swapAt.toNat

/-- In a pair the standby's staging is not this unit's to know: whether it holds the same Charter is a free value. -/
def State.asksStandby (s : State) (old : Charter) : Bool := old.pair && s.par.role != .standby

/-- ARM. -/
def State.chtArm (s : State) : State :=
  match s.cht.stage, s.cht.active, s.cht.staged with
  | .staged, some old, some new =>
    let asks := s.asksStandby old
    let s0 := if asks then s.drawn 1 else s
    match s.armFails old new (!asks || bit s.free 0) with
    | some (code, detail) =>
      s0.mapCht fun t => { t with errCode := code, errDetail := detail, evt := setBit t.evt 5 }
    | none =>
      (s0.mapCht fun t => { t with stage := .armed, armedLive := s.liveAxes, evt := setBit t.evt 2 }).armPrepare old new
  | _, _, _ => s.chtIgnored

/-- ARM. -/
def execArm (_src : Source) (s : State) : Host.Outcome State Fault Refusal := .next s.chtArm

/-- The stations told of the swap are told that it is cancelled; one in TIMING or CONFIGURING for it enrols again (R83, R341).
Log 90 (DESIGN CHOICE). -/
def State.cancelStations (s : State) (c : Nat) : State :=
  forEach s.everyPos (fun (e : Nat × Nat × Position) (s : State) => match e.2.2.station with
    | some num =>
      if e.2.2.ahead && e.2.2.st == .timing then
        (s.sendRelease e.1 e.2.1).mapPos e.1 e.2.1 fun q => q.empty .found
      else if e.2.2.effective ≤ c then s
      else if e.2.2.st == .bound then
        (s.sendDown e.1 num 0x03 (twoWords e.2.2.effective)).mapPos e.1 e.2.1 fun q =>
          { q with effective := 0, acked := true, ackedFor := none }
      else if e.2.2.st == .configuring then
        ((s.sendDown e.1 num 0x03 (twoWords e.2.2.effective)).sendRelease e.1 e.2.1).mapPos e.1 e.2.1 fun q => q.empty .found
      else s
    | none => s) s

/-- DISARM: accepted until the clearing point of cycle CHT_SWAP_AT − 128 (R83). -/
def State.chtDisarm (s : State) : State :=
  if s.cht.stage ≠ .armed then s.chtIgnored
  else if s.cyc.num + 128 < s.cht.swapAt.toNat then
    ((s.mapCht fun t => { t with stage := .staged, prepared := [], evt := setBit t.evt 4 }).mapLedger fun l =>
      { l with pinLoading := false }).cancelStations s.cht.swapAt.toNat
  else s.mapCht fun t => { t with evt := setBit t.evt 6 }

/-- DISARM. -/
def execDisarm (_src : Source) (s : State) : Host.Outcome State Fault Refusal := .next s.chtDisarm

/-! ## Pages and commands (R27, R87, R95, R146, R190) -/

/-- Page lines changed since the last Escrow, on a unit that sends one (R380). -/
def Par.dirtyPage (p : Par) (a : Nat) (lines : List Nat) : Par :=
  if p.role == .active then
    { p with dirtyLines := lines.foldl (fun d m => if d.contains (a, m) then d else d ++ [(a, m)]) p.dirtyLines }
  else p

/-- Words put into an axis page by the device; lines that change go into the Escrow (R380). -/
def State.putPage (s : State) (a off : Nat) (ws : List Word) : State :=
  let lines := ((indexed ws).filterMap fun e =>
    if s.page a (off + 4 * e.1) = e.2 then none else some ((off + 4 * e.1) / 32)).eraseDups
  (s.setPageWords a off ws).mapPar fun p => p.dirtyPage a (lines.filter fun n => 8 ≤ n)

/-- Two BLOCK records are of one block: the same ID, instance number and shape (R85). -/
def BlockRec.sameBlock (x y : BlockRec) : Bool := x.id == y.id && x.inst == y.inst && x.params.getD 0 0 == y.params.getD 0 0

/-- Stages and parameters of a chain: a stage found under the same block ID and instance number and of the same shape in an
older layout of the page is kept, any other is a zero stage; of several records alike, each takes its own, in chain order
(R85, R146, R191). -/
def State.chainWords (s : State) (a : Nat) (old new : List (BlockRec × Nat × Nat)) : List Word :=
  (indexed new).flatMap fun ie =>
    let e := ie.2
    let rank := ((new.take ie.1).filter fun o => o.1.sameBlock e.1).length
    (match (old.filter fun o => o.1.sameBlock e.1)[rank]? with
      | some o => (List.range (stageWords (e.1.params.getD 0 0))).map fun i => s.page a (o.2.1 + 4 * i)
      | none => e.1.zeroStage.words) ++ e.1.params.drop 1

/-- Page words that the service core wrote for the staged Charter put into the pages (R18, R77). -/
def State.putWrites (s : State) (ws : List (Nat × Word)) : State :=
  forEach ws.reverse (fun (e : Nat × Word) (s : State) => s.putPage (e.1 / 1024) (e.1 % 1024 * 4) [e.2]) s

/-- The page words written for the staged Charter take their place. -/
def State.applyPageWrites (s : State) : State :=
  let s1 := s.putWrites s.cht.pageWrites
  s1.mapCht fun t => { t with pageWrites := [] }

/-- The SIG values of the NOTCH instances of an axis, in chain order; a fixed one has none. -/
def Charter.notchSigs (c : Charter) (a : Nat) : List Nat :=
  match c.chain? a with
  | some ch => (ch.blocks.filter fun b => b.id == 0x0200).map fun b => (b.params.getD 1 0).toNat
  | none => []

/-- A signal's value as the cycle block takes it: 0 for a reserved identifier, which is recorded with requester 31 (R284). -/
def State.takeSig (s : State) (id : Nat) : Word × State :=
  if id = 0 then (0, s)
  else
    let (e, s1) := s.readEntry 31 id .clean
    (entryValue e, s1)

/-- The command items and the SIG values of an axis taken into its page (R27, R160, R190). -/
def State.takeCommands (s : State) (c : Charter) (a : Nat) : State :=
  let (cmd, s0) := s.readValues ((List.range 32).map fun i => sigId 1 a i)
  let s1 := s0.putPage a 0x180 cmd
  forEach (indexed (c.notchSigs a)) (fun (e : Nat × Nat) (s : State) =>
    let (v, s') := s.takeSig e.2
    s'.putPage a (0x2E0 + 4 * e.1) [v]) s1

/-! ## What comes into force with a Charter (R259, R276, R299, R86) -/

/-- Whole microseconds of the timescale of R37. -/
def State.us (s : State) : Nat := s.time / 1000

/-- Classes, window and urgent budget of a Charter wait for the next window (R65, R299). -/
def Charter.arbClasses (c : Charter) : List (Nat × Nat) × Nat × Nat :=
  ((List.range 24).map fun n => match c.classes.find? fun k => k.req == n with
    | some k => (k.cls, k.allowance)
    | none => (2, 64), c.windowLen, c.urgentBeats)

/-- The Teller of a Charter that enters force with no task in service: its tasks, its bindings and its TIMER entries; events
already raised keep the bindings before. -/
def State.enterTeller (s : State) (c : Charter) : State :=
  s.mapTeller fun t =>
    let t1 := { t with
      tasks := c.tasks.map (taskOf c), ready := List.replicate 16 [], flows := [], lists := List.replicate 8 [], dueQ := []
      oldBinds := t.binds, binds := c.binds, gen := t.gen + 1 }
    c.binds.foldl (fun t b => t.addTimer s.us b) t1

/-- The page of an axis that starts afresh: nothing in it but the zero stages and parameters of its chain. -/
def State.freshPage (s : State) (c : Charter) (a : Nat) : State :=
  let ws := s.chainWords a [] (c.layoutOf a)
  s.putPage a 0 (List.replicate 192 0 ++ ws ++ List.replicate (832 - ws.length) 0)

/-- An axis starts afresh: EN 0, zero stages, no reaction in force, and the next SSI reading of its ports and channels a first
one (R85, R236). -/
def State.freshAxis (s : State) (c : Charter) (a : Nat) : State :=
  let s1 := (s.freshPage c a).mapAxis a fun x =>
    { ((x.freshChan false).freshChan true) with run := AxisRun.reset, out0 := 0, out1 := 0, causes := [] }
  match c.axis? a with
  | none => s1
  | some r =>
    let first := fun (w : Word) (s : State) =>
      if isLocal w then s.mapFb (field w 3 0) fun p => { p with ssiFirst := true } else s
    let s2 := if r.mode ≠ 2 then first r.primary s1 else s1
    if bit r.loadFb 30 then first r.loadFb s2 else s2

/-- The axis of the holding Charter, under its number there, that an axis of the Charter goes on from: the one on the same axis slot of
the same station (R410). -/
def State.carriedFrom (s : State) (c : Charter) (a : Nat) : Option AxisRec :=
  if s.reduced then
    match s.bst.holdC, c.axis? a with
    | some h, some n => h.axes.find? fun o => o.target == n.target
    | _, _ => none
  else none

/-- An axis goes on from reduced service. -/
def State.carried (s : State) (c : Charter) (a : Nat) : Bool := (s.carriedFrom c a).isSome

/-- An axis with the runner state, the outputs and the channels of the one that it goes on from; a role of another source begins
anew. -/
def Axis.goOn (x o : Axis) (r old : AxisRec) : Axis :=
  let run := { o.run with
    prim := { o.run.prim with first := o.run.prim.first || old.primary != r.primary }
    load := { o.run.load with first := o.run.load.first || old.loadFb != r.loadFb } }
  { o with
    run := run, cfg0 := x.cfg0, cfg1 := x.cfg1, ssi0 := x.ssi0, ssi1 := x.ssi1, cfgSt0 := x.cfgSt0, cfgSt1 := x.cfgSt1
    ssiSt0 := x.ssiSt0, ssiSt1 := x.ssiSt1, stat0 := x.stat0, stat1 := x.stat1, ovrCount := x.ovrCount
    ovrConsec := x.ovrConsec, ovrCause := x.ovrCause, travel := x.travel, reversals := x.reversals
    energised := x.energised, faults := x.faults, dbkSerial := x.dbkSerial }

/-- No job of an axis has its sample cycle in the cycles that START begins to number (R15, R267). -/
def Axis.noJob (x : Axis) : Axis :=
  { x with jobK := 0, jobDue := false, inTime := false, began := false, bufStop := false }

/-- The axis pages and the runner states of a Charter that enters force at START (R410). -/
def State.enterAxes (s0 : State) (c : Charter) : State :=
  let s1 := forEach c.axes (fun (r : AxisRec) (s : State) =>
    match s0.carriedFrom c r.axis with
    | some o =>
      let ws := s.chainWords r.axis [] (c.layoutOf r.axis)
      let s' := if o.axis = r.axis then s
        else s.putPage r.axis 0 ((List.range 192).map fun i => s0.page o.axis (4 * i))
      (s'.putPage r.axis 0x300 (ws ++ List.replicate (832 - ws.length) 0)).mapAxis r.axis fun x =>
        (x.goOn (s0.axis o.axis) r o).noJob
    | none => (s.freshAxis c r.axis).mapAxis r.axis Axis.noJob) s0
  forEach c.axes (fun (r : AxisRec) (s : State) => s.reviewRecord r) s1

/-- The tables and the pages of the active Charter enter force (R87, R146, R259). -/
def State.enterCharter (s : State) (c : Charter) : State := (((s.dropRuns.enterTeller c).enterAxes c).applyPageWrites).setMedia c

/-! ## The holding block (R405) -/

/-- The standard blocks that a standard block takes its MAIN_SRC and AUX_SRC from, in the table *Standard Mode I chain*. -/
def standardSrc (id : Nat) : Option Nat × Option Nat :=
  match id with
  | 0x0121 => (some 0x0120, none)
  | 0x0111 => (some 0x0121, some 0x0110)
  | 0x0112 => (some 0x0111, none)
  | _ => (none, none)

/-- The standard chain of a mode: the first block of each standard ID of a chain, with the sources that it has in the standard
chain (R150, R407). -/
def standardOf (mode : Nat) (blocks : List BlockRec) : List BlockRec :=
  let std := (standardBlocks mode).filterMap fun id => blocks.find? fun b => b.id == id
  let at1 := fun (src : Option Nat) => (src.bind fun id => std.findIdx? fun b => b.id == id).getD 0xFF
  std.map fun b => { b with mainSrc := at1 (standardSrc b.id).1, auxSrc := at1 (standardSrc b.id).2 }

/-- The words of an AXIS record in the holding block. -/
def AxisRec.holdWords (r : AxisRec) : List Word :=
  [BitVec.ofNat 32 r.axis, BitVec.ofNat 32 r.mode, BitVec.ofNat 32 r.rate, BitVec.ofNat 32 r.phase, BitVec.ofNat 32 r.source,
   r.target, r.primary, r.loadFb, BitVec.ofNat 32 r.reaction, BitVec.ofNat 32 r.overrunLimit]

/-- The words of a slot in the holding block. -/
def HoldSlot.words (x : HoldSlot) : List Word :=
  [BitVec.ofNat 32 x.slot.port, BitVec.ofNat 32 x.medium, BitVec.ofNat 32 x.slot.pos, BitVec.ofNat 32 x.slot.station,
   x.slot.vendor, x.slot.model] ++ twoWords x.slot.serial.toNat ++ [BitVec.ofNat 32 x.slot.policy]

/-- The words of an axis in the holding block. -/
def HoldAxis.words (x : HoldAxis) : List Word :=
  x.axisRec.holdWords ++ (x.blocks.flatMap fun b => [BitVec.ofNat 32 b.id, BitVec.ofNat 32 b.params.length] ++ b.params) ++ x.cmd

/-- The words of a holding block, over which its digest is formed: header, slots and axes in the order of the table *Holding
block*. Log 57 (DESIGN CHOICE). -/
def HoldBlock.words (h : HoldBlock) : List Word :=
  [BitVec.ofNat 32 h.format] ++ twoWords h.charterId.toNat ++ [BitVec.ofNat 32 h.slots.length, BitVec.ofNat 32 h.axes.length]
    ++ h.slots.flatMap HoldSlot.words ++ h.axes.flatMap HoldAxis.words

/-- The SHA-256 digest that a holding block should carry (R405). -/
def HoldBlock.sum (h : HoldBlock) : List Byte := sha256 (bytesOf h.words)

/-- The holding block of a Charter, with the command words in force. Log 57 (DESIGN CHOICE). -/
def holdBlockOf (c : Charter) (cmd : Nat → List Word) : HoldBlock :=
  let held := fun (r : AxisRec) => !isLocal r.target && match c.slot? (field r.target 8 0) with
    | some sl => sl.policy == 0
    | none => false
  let h : HoldBlock :=
    { format := 1, charterId := c.charterId, digest := []
      slots := c.slots.map fun sl =>
        { slot := sl, medium := match c.port? sl.port with | some p => p.medium | none => 0 }
      axes := (c.axes.filter held).map fun r =>
        { axisRec := r
          blocks := standardOf r.mode (match c.chain? r.axis with | some ch => ch.blocks | none => [])
          cmd := cmd r.axis } }
  { h with digest := h.sum }

/-- The command words 22 to 31 in the page of an axis. -/
def State.holdCmd (s : State) (a : Nat) : List Word := (List.range 10).map fun i => s.page a (0x180 + 4 * (22 + i))

/-- The holding block written from the Charter that comes into force. -/
def State.writeHold (s : State) (c : Charter) : State :=
  s.mapBst fun b => { b with hold := some (holdBlockOf c s.holdCmd), holdSeen := true }

/-- The holding block written at START: the command words are those that the INIT records give (R405). Log 57 (DESIGN CHOICE). -/
def State.writeHoldInit (s : State) (c : Charter) : State :=
  let cmd := fun (a : Nat) => (List.range 10).map fun i => entryValue (memRead s.ledger.mem (sigId 1 a (22 + i)))
  s.mapBst fun b => { b with hold := some (holdBlockOf c cmd), holdSeen := true }

/-! ## START (R287, R290, R409, R411) -/

/-- The stations kept over a START in reduced service: the new Charter has their number on their port, they match and cover
it, and they pass R326 at full-service timing. -/
def State.keeps (s : State) (c : Charter) (p n : Nat) (q : Position) : Bool :=
  q.st == .bound && match q.station.bind c.slot? with
    | some r => r.port == p && r.meets q (s.primaryPos p n) && s.covers c r.station q.caps && s.leadFits c r.station p n 2 1000
    | none => false

/-- A station sent RELEASE enrols again from FOUND: it is not absent (R409, R463). -/
def State.releaseToFound (s : State) (p n : Nat) : State :=
  let s1 := match ((s.port p).at n).station with
    | some num => s.mapStation num Station.gone
    | none => s
  (s1.sendRelease p n).mapPos p n fun q => q.empty .found

/-- Stations at a START in reduced service: kept ones get SLOT_CONFIG with EFFECTIVE 0, all others RELEASE. -/
def State.startStations (s : State) (c : Charter) : State :=
  let s1 := forEach s.everyPos (fun (e : Nat × Nat × Position) (s : State) =>
    if e.2.2.st = .absent ∨ e.2.2.st = .isolated then s
    else if s.keeps c e.1 e.2.1 e.2.2 then s.sendConfig c e.1 e.2.1 (e.2.2.station.getD 0) 0
    else s.releaseToFound e.1 e.2.1) s
  let kept := s.everyPos.filterMap fun e => if s.keeps c e.1 e.2.1 e.2.2 then e.2.2.station else none
  s1.mapCht fun t => { t with keptWait := kept }

/-- A port changes to 5 Gbaud; the link is down until it is aligned again. -/
def Port.fullRate (q : Port) : Port := if q.rate then q else { q with rate := true, linkUp := false }

/-- The Ledger placed, cleared and given the INIT records and pins of the Charter; READY follows (R87, R287, R290, R291). -/
def Ledger.start (l : Ledger) (c : Charter) : Ledger :=
  { l with
    base := BitVec.ofNat 64 (c.layout.getD 0x810000000), mem := initInto [] c.initCells, ready := false, clearing := true
    pins := pinRanges c.pins, lines := [], fills := [], wbuf := [], bad := [] }

/-- The role at a START: a pair Charter makes the unit ACTIVE where it holds the Warrant and SEEKING where not; without PAIR
it is SINGLE, and claims where it holds none (R365, R370). -/
def State.startRole (s : State) (c : Charter) : State :=
  if c.pair then
    (s.setRole (if s.par.holds then .active else .seeking)).mapPar fun p =>
      { p with
        seekSince := s.tim.now
        inhibit := match c.pairRec with | some r => r.inhibit | none => p.inhibit
        lease := match c.pairRec with | some r => r.lease | none => 8 }
  else
    let s1 := if s.par.holds then s else s.claimEpoch.takeWarrant
    (s1.setRole .single).mapPar fun p => { p with lease := 8 }

/-- START. Log 59 (DEDUCED). -/
def State.chtStart (s : State) : State :=
  match s.cht.stage, s.cht.active, s.cht.staged with
  | .staged, none, some c =>
    if s.clk.derated && !s.cht.stagedSafe then s.chtIgnored 0x27
    else if !s.bst.released || (s.par.unit && !c.pair) then s.chtIgnored
    else
      let places := placeAll 0 c.codes
      let s1 := { s with
        cht := { s.cht with
          active := some c, staged := none, stage := .empty, activeBank := false, activeKey := c.keySlot
          activeSafe := s.cht.stagedSafe, placed := places, started := true }
        code := writeCode [] c places
        ledger := s.ledger.start c
        arb := { s.arb with pendingCls := some c.arbClasses } }
      let s2 := (s1.writeHoldInit c).forceRws.startRole c
      if s.reduced then
        let latest := (s.tim.now / 250000 + 256) * 250000
        ((s2.startStations c).mapCht fun t => { t with phase := .waitTs, tS := latest }).reviewRole
      else
        (({ s2 with ports := s2.ports.map Port.fullRate }.enterCharter c).mapCht fun t =>
          { t with phase := .clearing }).reviewRole
  | _, _, _ => s.chtIgnored

/-- START. -/
def execStart (_src : Source) (s : State) : Host.Outcome State Fault Refusal := .next s.chtStart

/-! ## The start of full service (R87, R287, R409 to R411) -/

/-- The device waits for t(0), the outputs frozen until the instant t(0) − L_max. -/
def State.awaitT0 (s : State) (t0 : Nat) : State :=
  (s.mapCht fun t => { t with phase := .toT0, t0 := t0 }).mapCyc fun y => { y with sampled := true, frozen := true }

/-- LEDGER_READY: clearing and the INIT records are complete (R287). t(0) is then chosen under R411, or t_S under R409. -/
def execLedgerReady (s : State) : Host.Outcome State Fault Refusal :=
  if !s.ledger.clearing then .next s
  else
    let s1 := s.mapLedger fun l => { l with ready := true, clearing := false }
    if s.cht.phase = .clearing then .next (s1.awaitT0 (ceilTo 250000 (s.tim.now + 1000000)))
    else .next s1.fixTs

/-- LAST_REDUCED_APPLY: the instant t_S. Kept stations that have not acknowledged are released; ports outside the holding
block change rate (R409, R410). -/
def execLastReducedApply (s : State) : Host.Outcome State Fault Refusal :=
  if s.cht.phase ≠ .waitTs ∨ !s.ledger.ready then .next s
  else
    let s1 := forEach s.everyPos (fun (e : Nat × Nat × Position) (s : State) => match e.2.2.station with
      | some num => if s.cht.keptWait.contains num then s.releaseToFound e.1 e.2.1 else s
      | none => s) s
    let s2 := { s1 with
      cht := { s1.cht with keptWait := [] }
      ports := (indexed s1.ports).map fun (e : Nat × Port) =>
        if (s1.bst.holdC.bind fun h => h.port? e.1).isSome then e.2 else e.2.fullRate }
    .next (s2.awaitT0 (s.cht.tS + 500000)).reviewRole

/-- Frames launched after a clearing point count anew. -/
def State.newFrames (s : State) : State :=
  { s with ports := s.ports.map fun q => { q with launched := false, discDone := false, pendingDisc := none } }

/-- The instant t(0) − L_max, which stands as the clearing point of cycle −1: the Charter enters force where reduced service
ran until now, the commands of every axis are taken, and the GPIO levels and enables that wait (R87, R286).
Log 78 (DEDUCED). -/
def State.leadIn (s : State) (c : Charter) : State :=
  let s1 := if s.reduced then s.enterCharter c else s
  let s2 := forEach c.axes (fun (r : AxisRec) (s : State) => s.takeCommands c r.axis) s1
  ((s2.mapCyc fun y => { y with frozen := false }).mapIo fun io =>
    { io with gpioOutR := io.gpioOutW, gpioEnR := io.gpioEnW }).newFrames

/-- Reduced service ends with a reason (BST_RSV_STAT, BST_EVT). -/
def State.endReduced (s : State) (reason : Nat) : State :=
  s.mapBst fun b => { b with rsvRunning := false, rsvReason := reason, evt := setBit b.evt 4 }

/-- Axes carried from HOLD hand over in the first cycle of full service (R201, R410). -/
def State.handService (s : State) (c : Charter) : State :=
  forEach c.axes (fun (r : AxisRec) (s : State) =>
    if s.carried c r.axis && (s.axis r.axis).run.en then
      s.mapAxis r.axis fun x => { x with run := { x.run with hand := .service } }
    else s) s

/-- FULL_SERVICE_BEGIN: t(0). Reduced service, where it ran, is over; the lanes are all open, and stations identified in the
meantime are matched (R410, R411). -/
def execFullServiceBegin (s : State) : Host.Outcome State Fault Refusal :=
  match s.cht.phase, s.cht.active with
  | .toT0, some c =>
    let s1 := if s.cyc.frozen then s.leadIn c else s
    let s2 := if s.reduced then (s1.handService c).endReduced 6 else s1
    let s3 := { s2 with
      cht := { s2.cht with phase := .running }
      cyc := { s2.cyc with service := 2, k := 0, tk := s.cht.t0, sampled := false, frozen := false }
      teller := { s2.teller with laneEn := 0xFFFF }
      bst := { s2.bst with holdC := none } }
    let s4 := forEach s3.everyPos (fun (e : Nat × Nat × Position) (s : State) =>
      if e.2.2.st == .identified then s.enrolMatch e.1 e.2.1 else s) s3
    .next (s4.writeHold c)
  | _, _ => .next s

/-! ## The swap (R84 to R86, R463) -/

/-- An axis that a swap brings into Mode S: its position is carried, held to a whole number of fine counts as the issued
position, at resolution level 0 (R85, R221). Log 109 (DESIGN CHOICE). -/
def AxisRun.intoSteps (x : AxisRun) : AxisRun :=
  let q := gridPos x.posFb.toInt 0
  { x with q := q, qLast := q, level := 0, pendLevel := none, posFb := posOfInt q }

/-- Feedback of a role begins anew where its source is another; an axis that comes into Mode S issues from its position. -/
def AxisRun.newSources (x0 : AxisRun) (o n : AxisDef) : AxisRun :=
  let x := if n.axisRec.mode = 2 ∧ o.axisRec.mode ≠ 2 then x0.intoSteps else x0
  let x1 := if o.axisRec.primary ≠ n.axisRec.primary ∨ o.axisRec.target ≠ n.axisRec.target ∨ o.slot ≠ n.slot then
    { x with prim := { x.prim with first := true } } else x
  if o.axisRec.loadFb ≠ n.axisRec.loadFb ∨ o.loadSlot ≠ n.loadSlot then { x1 with load := { x1.load with first := true } } else x1

/-- The block area of an axis put in place for the incoming chain. -/
def State.swapChain (s : State) (old new : Charter) (a : Nat) (keep : Bool) : State :=
  let ws := s.chainWords a (if keep then old.layoutOf a else []) (new.layoutOf a)
  s.putPage a 0x300 (ws ++ List.replicate (832 - ws.length) 0)

/-- The REACTION of an axis under a Charter is torque off. -/
def rejectedOff (c : Charter) (a : Nat) : Bool :=
  match c.axis? a with
  | some r => reactionOf r false == 1
  | none => true

/-- An axis that turned live after ARM with a change of the rejected kinds takes its REACTION of the active Charter at the
clearing point of cycle c, and starts afresh as an added one: under torque off its output of cycle c is off; under a
controlled stop or a hold position that output is released as the job formed it, and the line "Added" forms the next
(R82, R85). Log 65 (DEDUCED). -/
def State.rejectedOutput (s : State) (old new : Charter) (a : Nat) : State :=
  let x := s.axis a
  if rejectedOff old a then (s.outputOff a).freshAxis new a
  else (s.freshAxis new a).mapAxis a fun y => { y with out0 := x.out0, out1 := x.out1 }

/-- The local STEP/DIR pairs that the incoming Charter leaves to no axis, or to another, stop (R85). -/
def State.stopPairs (s : State) (old new : Charter) : State :=
  forEach old.axes (fun (r : AxisRec) (s : State) =>
    if new.axes.any fun n => n.axis == r.axis && n.target == r.target then s else s.stopStep r.target) s

/-- The treatment of an axis at the swap: the first line of the table that matches it (R85). Log 65 (DEDUCED). -/
def State.swapAxis (s : State) (old new : Charter) (live : List Nat) (a : Nat) : State :=
  let armed := live.contains a
  let srcs := fun (s : State) => match old.axisDef a, new.axisDef a with
    | some o, some n => s.mapAxis a fun x => { x with run := x.run.newSources o n }
    | _, _ => s
  match axisChange old new a with
  | .absent => s
  | .unchanged => s
  | .removed =>
    (if s.live a && !armed && !rejectedOff old a then s else s.outputOff a).mapAxis a fun x =>
      { x with run := AxisRun.reset, causes := [] }
  | .added => s.freshAxis new a
  | .rejected =>
    if s.live a && !armed then
      (s.rejectedOutput old new a).mapAxis a fun x => { x with run := { x.run with needOff := true } }
    else srcs (s.swapChain old new a true)
  | .params =>
    let s1 := srcs (s.swapChain old new a true)
    if armed then s1.mapAxis a fun x => { x with run := { x.run with hand := .swap } } else s1
  | .structural =>
    let s1 := srcs (s.swapChain old new a (!armed))
    if armed then s1.mapAxis a fun x => { x with run := { x.run with hand := .swap } } else s1

/-- A TASK record, with the rate and phase of its axis, is the same in both Charters. -/
def taskSame (old new : Charter) (n : Nat) : Bool :=
  match old.tasks.find? (fun r => r.task == n), new.tasks.find? (fun r => r.task == n) with
  | some o, some r => o == r && taskOf old o == taskOf new r
  | _, _ => false

/-- A TIMER binding stands behind a delay entry. -/
def timerOf (binds : List BindRec) (e : Delay) : Bool :=
  binds.any fun b => b.kind == 0x0A && b.task == e.task && b.bit == e.flag && b.index == e.period

/-- The Teller at a swap: unchanged tasks keep everything; a changed or removed one that is in service completes under its old
record; delay entries stay with unchanged tasks, and one that a tick has taken has fired; the bindings change (R86, R266,
R276, R281). -/
def Teller.swap (t : Teller) (old new : Charter) (us : Nat) : Teller :=
  let same := taskSame old new
  let kept := t.tasks.filterMap fun k =>
    if same k.num then some k
    else if k.running then some { k with changed := true }
    else none
  let fresh := (new.tasks.filter fun r => !kept.any fun k => k.num == r.task).map (taskOf new)
  let stays := fun (e : Delay) => same e.task && (!e.timer || timerOf new.binds e)
  let t1 := { t with
    tasks := kept ++ fresh
    ready := t.ready.map fun l => l.filter same
    lists := t.lists.map fun l => l.filter stays
    dueQ := t.dueQ.filter fun e => same e.task
    oldBinds := t.binds, binds := new.binds, gen := t.gen + 1 }
  let had := fun (b : BindRec) => old.binds.contains b && same b.task
  new.binds.foldl (fun t b => if had b then t else t.addTimer us b) t1

/-- A station of a changed slot stays BOUND: it matches, covers and fits the incoming Charter and has acknowledged (R463). -/
def State.staysBound (s : State) (new : Charter) (c p n num : Nat) (q : Position) : Bool :=
  match new.slot? num with
  | some r => r.port == p && r.meets q (s.primaryPos p n) && s.covers new num q.caps && s.leadOk new num p n
      && q.ackedFor == some (c + 1)
  | none => false

/-- One position at the swap (R463). A station still in TIMING or CONFIGURING under the outgoing Charter goes on where the
incoming one has its slot. -/
def State.swapPos (s : State) (old new : Charter) (c : Nat) (e : Nat × Nat × Position) : State :=
  let (p, n, q) := e
  match q.st, q.station with
  | .bound, some num =>
    if !slotChanged old new num || s.staysBound new c p n num q then s else s.releaseToFound p n
  | .unbound, _ =>
    if q.reason = 1 ∨ q.reason = 2 ∨ q.reason = 3 ∨ q.reason = 8 then s.mapPos p n fun q => q.empty .found else s
  | .timing, some num =>
    if q.ahead then s.mapPos p n fun q => { q with ahead := false }
    else if !slotChanged old new num then s else s.releaseToFound p n
  | .configuring, some num =>
    if q.ahead || decide (c < q.effective) then s.mapPos p n fun q => { q with ahead := false }
    else if !slotChanged old new num then s else s.releaseToFound p n
  | _, _ => s

/-- PAIR policy and role at a swap; a new LEASE waits for the first renewal after it (R86, R365, R377). -/
def State.swapPair (s : State) (old new : Charter) : State :=
  let s1 := s.mapPar fun p =>
    { p with
      inhibit := match new.pairRec with | some r => if new.pair then r.inhibit else p.inhibit | none => p.inhibit
      leaseDue := some (if new.pair then (match new.pairRec with | some r => r.lease | none => 8) else 8) }
  if old.pair == new.pair then s1.reviewRole
  else if new.pair then (s1.setRole (if s.par.holds then .active else .seeking)).reviewRole
  else s1.setRole .single

/-- Nanoseconds of one timescale as another gives them. -/
def shiftNs (d : Int) (t : Nat) : Nat := ((t : Int) + d).toNat

/-- A delay entry on another timescale, in whole µs. -/
def Delay.shift (d : Int) (e : Delay) : Delay := { e with due := shiftNs d (e.due * 1000) / 1000 }

/-- Times of the acquisition on another timescale; a fast interval begins at a whole multiple of its length. -/
def Acq.shift (a : Acq) (d : Int) : Acq :=
  let len := 2 ^ a.fLog * 1000
  { a with
    fFirst := shiftNs d a.fFirst / len * len, fastAt := a.fastAt.map (shiftNs d), calStart := shiftNs d a.calStart
    checkAt := a.checkAt.map fun ms => shiftNs d (ms * 1000000) / 1000000,
    placedAt := a.placedAt.map fun e => (shiftNs d e.1, e.2)
    fNext := a.fNext.map fun e => (e.1, shiftNs d e.2 / len * len)
    chan := (indexed a.chan).map fun e => { e.2 with
      nxt := if e.1 < 64 then e.2.nxt else e.2.nxt.map fun x => (shiftNs d x.1 / len * len, x.2)
      prev := e.2.prev.map fun v => (v.1, shiftNs d v.2.1, v.2.2) } }

/-- Times of the local I/O that are still to be compared, on another timescale; registers keep what they show. -/
def Local.shift (io : Local) (d : Int) : Local :=
  let cmp := fun (c : Cmp) => { c with actAt := shiftNs d c.actAt, checks := c.checks.map fun k => (shiftNs d k.1, k.2) }
  { io with
    fb := io.fb.map fun p => { p with tLast := shiftNs d p.tLast, dirAt := shiftNs d p.dirAt, ssiAt := shiftNs d p.ssiAt }
    step := io.step.map fun p =>
      { p with riseAt := shiftNs d p.riseAt, fallAt := shiftNs d p.fallAt, dirAt := shiftNs d p.dirAt }
    lcmp := io.lcmp.map cmp, scmp := io.scmp.map cmp, ainAt := io.ainAt.map fun t => t.map (shiftNs d) }

/-- A swap that sets or clears PAIR changes the timescale by PAR_TOFFS: t(k), the due times of the delay lists and the
instants that still wait are the same instants on the new one (R37). Log 92 (DEDUCED). -/
def State.rescale (s : State) (d : Int) : State :=
  if d = 0 then s
  else
    { s with
      cyc := { s.cyc with tk := shiftNs d s.cyc.tk }
      teller := { s.teller with
        lists := s.teller.lists.map fun l => l.map (Delay.shift d), dueQ := s.teller.dueQ.map (Delay.shift d) }
      io := s.io.shift d, acq := s.acq.shift d, par := { s.par with txUntil := shiftNs d s.par.txUntil }
      stations := s.stations.map fun t => { t with timed := t.timed.map (shiftNs d) }
      ports := s.ports.map fun q => { q with timedQ := q.timedQ.map fun e => { e with tc := shiftNs d e.tc } } }

/-- The perturbation registers at a swap to a Charter that does not unlock them (R395). -/
def State.swapPtb (s : State) (new : Charter) : State :=
  if s.unlocks (some new) then s else s.mapPtb fun p => { p.clear with evt := setBit p.evt 3 }

/-- The swap at the clearing point of cycle c: the staged bank becomes active, and everything of R85 and R86 is carried.
Log 65 (DEDUCED). Log 92 (DEDUCED). -/
def State.swap (s : State) (old new : Charter) : State :=
  let c := s.cht.swapAt.toNat
  let s1 := (forRange 256 (fun a s => s.swapAxis old new s.cht.armedLive a) s).stopPairs old new
  let whole := new.codes.all fun k => s.cht.prepared.any fun e => e.2 == k.id
  let places := if whole then s.cht.prepared else placeAll 0 new.codes
  let hand := (handoverAxes old new s.cht.armedLive).foldl (fun w a => setBit w a) 0
  let s2 := { s1 with
    code := if whole then s1.code else writeCode s1.code new places
    cht := { (s1.cht.fillStaging s1.cht.stagingBank) with
      active := some new, staged := none, stage := .empty, activeBank := !s1.cht.activeBank, activeKey := new.keySlot
      activeSafe := s1.cht.stagedSafe, handover := hand, placed := places, prepared := [], evt := setBit s1.cht.evt 3
      outgoing := some { cycle := c, live := s1.cht.armedLive, charter := old, writes := s1.cht.pageWrites } }
    ledger := s1.ledger.repin (pinRanges new.pins)
    arb := { s1.arb with pendingCls := some new.arbClasses }
    teller := s1.teller.swap old new s.us }
  let s3 := (s2.applyPageWrites.forceRws).setMedia new
  let s4 := forEach new.axes (fun (r : AxisRec) (s : State) => s.reviewRecord r)
    (forEach s3.everyPos (fun (e : Nat × Nat × Position) (s : State) => s.swapPos old new c e) s3)
  let s5 := (s4.swapPtb new).swapPair old new
  s5.rescale ((s5.time : Int) - (s.time : Int))

end Sys2Proof.Machine
end

