-- ==== Sys2Proof/Machine/Pair.lean ====
section
/-!
DEFINITION. Paired units (15_paired_units, R364 to R383): heartbeats and pair time, renewals, supersession, takeover, takeback
and relinquish, and the Escrow as it is latched and as it is received.
-/
namespace Sys2Proof.Machine
open Sys2Proof

/-! ## Pair time and heartbeats (R366 to R368) -/

/-- What a secondary or a starting primary hears of another unit in its listen (R406). Log 54 (DESIGN CHOICE). -/
def State.listenHear (s : State) : State := s.mapBst fun b => { b with heard := b.heard || b.listening }

/-- A mirror frame whose CRC fails is discarded and counted, whatever it held (R366). -/
def State.mirrorFrame (s : State) (ok : Bool) (f : State → State) : State :=
  if ok then f s else s.mapPar fun p => { p with mirErr := p.mirErr + 1 }

/-- The timeline of the standby: instants t(k) are whole multiples of the base period in pair time, and the cycle number n of
a heartbeat stands from C after t(n) to C after t(n + 1) (R368). Log 48 (DESIGN CHOICE). -/
def State.joinGrid (s : State) (c : Charter) (h g : HbStamps) (cycle : Nat) : State :=
  let at1 := (h.dep / 100 + c.period - c.cpOffs) / c.period * c.period
  let toffs := crndDiv (h.twiceOffs g) 200
  let now := ((h.arr / 100 : Nat) + toffs).toNat
  { s with
    par := { s.par with toffs := toffs, gridSet := true }
    cht := { s.cht with phase := .running }
    cyc := { s.cyc with
      service := 2, num := cycle, numValid := true, k := cycle + 1, tk := at1, sampled := decide (at1 ≤ now)
      frozen := decide (at1 + (c.cpOffs - 1000) ≤ now) } }

/-- The residual error is steered by TIM_SLEW; the rate that the pair manager sets is a free value in its range (R38).
Log 48 (DESIGN CHOICE). -/
def State.steer (s : State) (terr : Int) : State :=
  let rate := clamp (-10000) 10000 (signed 32 s.free.toNat)
  ((s.mapPar fun p => { p with terr := terr, timeLocked := decide (terr.natAbs ≤ 100) }).mapTim fun t =>
    { t with slew := BitVec.ofNat 32 (lowBits 16 rate + 2 ^ 16) }).drawn 1

/-- The pair-time error of a standby, in units of 10 ps: its pair time less that of the other unit (R367). -/
def State.pairError (s : State) (h g : HbStamps) : Int := 100 * s.par.toffs - crndDiv (h.twiceOffs g) 2

/-- A heartbeat heard: a unit that listens hears the other. A standby forms the mirror delay, on entering STANDBY sets
PAR_TOFFS and takes the cycle number, and forms the pair-time error. Log 54 (DESIGN CHOICE). -/
def State.heartbeat (s : State) (cycle : Nat) (h g : HbStamps) : State :=
  let s0 := s.listenHear
  if s.par.role ≠ .standby then s0
  else
    let s1 := s0.mapPar fun p => { p with mirDly := (crndDiv (h.twiceDelay g) 200).toNat }
    match s.cht.active with
    | some c =>
      if s.par.gridSet then s1.steer (s1.pairError h g)
      else if s.ledger.ready then
        let s2 := s1.joinGrid c h g cycle
        s2.steer (s2.pairError h g)
      else s1
    | none => s1

/-- HEARTBEAT. -/
def execHeartbeat (_lane cycle : Nat) (heard sent : HbStamps) (ok : Bool) (s : State) : Host.Outcome State Fault Refusal :=
  .next (s.mirrorFrame ok fun s => s.heartbeat cycle heard sent)

/-- MIRROR_DOWN: neither lane has received a valid frame for 8 base cycles. -/
def execMirrorDown (s : State) : Host.Outcome State Fault Refusal :=
  if s.par.link then .next (s.mapPar fun p => { p with link := false, evt := setBit p.evt 5 }).reviewRole else .next s

/-- The lease of the holder heard last has lapsed, with the two renewals that a takeover waits for. -/
def State.lapsed (s : State) : Bool :=
  match s.par.heardAt with
  | some t => decide (t + (s.par.lease + 2) * s.period ≤ s.tim.now)
  | none => true

/-- A unit in SEEKING that hears a holder, with the mirror link up, enters STANDBY (R365). -/
def State.standBy (s : State) : State :=
  if s.par.role = .seeking ∧ s.par.link = true ∧ s.lapsed = false then s.setRole .standby else s

/-- MIRROR_UP: a valid mirror frame marks the link up. -/
def execMirrorUp (s : State) : Host.Outcome State Fault Refusal :=
  if s.par.link then .next s
  else .next ((s.mapPar fun p => { p with link := true, evt := setBit p.evt 6 }).reviewRole.standBy)

/-! ## Renewals and supersession (R372, R376, R414) -/

/-- t(k) of any cycle on the timeline in hand. -/
def State.instantOf (s : State) (k : Nat) : Int := (s.cyc.tk : Int) + ((k : Int) - (s.cyc.k : Int)) * (s.period : Int)

/-- The renewal of cycle k has come by t(k + 1), as a standby on its timeline judges it (R372). -/
def State.byNext (s : State) (k : Option Nat) : Bool :=
  match k with
  | some k => !s.par.gridSet || decide ((s.time : Int) ≤ s.instantOf (k + 1))
  | none => true

/-- A renewal of cycle k, if one is named, heard with an epoch not below the highest seen. One that has come by t(k + 1) counts
for k_r, and abandons a claim still to be launched, but for one whose GO has been sent (R372). -/
def State.hear (s : State) (epoch : Nat) (k : Option Nat) (lease : Option Nat) : State :=
  if s.par.holds || epoch == 0 then s
  else
    let on := s.byNext k
    let s1 := if on && s.par.claimAt.isSome && s.par.takeStep != .goSent then s.abandon 2 else s
    (s1.mapPar fun p =>
      { p with
        epoch := epoch, highest := max p.highest epoch, renew := if on then max p.renew (k.getD 0) else p.renew
        heardAt := some s.tim.now, lease := lease.getD p.renewLease.lease, leaseDue := none }).standBy

/-- Full service goes on under R411 where reduced service has ended between START and t_S. -/
def State.startWithout (s : State) : State :=
  match s.cht.active with
  | some c =>
    if s.cht.phase = .waitTs then
      let s1 := ({ s with ports := s.ports.map Port.fullRate }.enterCharter c).mapCht fun t =>
        { t with phase := .clearing, keptWait := [] }
      if s.ledger.ready then s1.awaitT0 (ceilTo 250000 (s.tim.now + 1000000)) else s1
    else s
  | none => s

/-- Superseded by a higher epoch: no further jobs, no issue frame from the next clearing point onwards; reduced service ends
at once. -/
def State.supersede (s : State) (epoch : Nat) : State :=
  let s1 := s.mapPar fun p => { p with evt := setBit p.evt 1, highest := max p.highest epoch }
  let role := s1.lesserRole
  if s.reduced then
    ((s1.stepDown.setRole role).endReduced 5).mapCyc (fun y => { y with service := 0, sampled := false, frozen := false })
      |>.mapBst (fun b => { b with holdC := none }) |>.startWithout
  else
    ((s1.dropRuns.mapTeller Teller.empty).mapPar fun p =>
      { p with takeStep := .none, claimAt := none, yields := true, takeAt := 0 }).setRole role

/-- The cycle that the CYCLE field of an issue header names; none in the lead-in frame. -/
def headerCycle (num cycle : Nat) : Option Nat := if cycle = 0xFFFFFFFF then none else some (num / 2 ^ 32 * 2 ^ 32 + cycle)

/-- ISSUE_FRAME_RECEIVE: an epoch below the highest seen is ignored and counted, a higher one supersedes a holder, and any
other renews the Warrant of the other unit. -/
def execIssueFrameReceive (port : Nat) (hdr : IssueHdr) (s : State) : Host.Outcome State Fault Refusal :=
  let s1 := s.symErrors port hdr.symErrs
  if !hdr.crcOk then .next (s1.mapPort port fun q => { q with crcErr := q.crcErr + 1, evt := setBit q.evt 3 })
  else
    let s0 := s1.listenHear
    if hdr.epoch < s.heardEpoch then .next (s0.countPort port 5 (BitVec.ofNat 32 hdr.epoch))
    else if s.par.holds then
      .next (if s.par.epoch < hdr.epoch then s0.supersede hdr.epoch else s0)
    else
      .next ((s0.mapPort port fun q => { q with lineUi := hdr.arrUi - hdr.launchUi }).hear hdr.epoch
        (headerCycle s.cyc.num hdr.cycle) (some hdr.lease))

/-! ## Takeover (R365, R369, R372 to R375) -/

/-- TAKEOVER_DECIDE: the renewals of k_r + 1 and k_r + 2 are both missed, the latter at t(k_r + 3); an epoch is claimed, and
the claim frame is that of cycle k_r + LEASE + 2. -/
def execTakeoverDecide (s : State) : Host.Outcome State Fault Refusal :=
  if s.par.role = .standby ∧ s.par.claimAt = none ∧ s.instantOf (s.par.renew + 3) ≤ (s.time : Int)
      ∧ (s.par.link || s.lineUp) = true
      ∧ s.par.gridSet = true then
    .next (s.claimEpoch.mapPar fun p => { p with claimAt := some (max s.cyc.k (p.renew + p.lease + 2)), takeStep := .none })
  else .next s

/-- SEEK_CLAIM: a unit in SEEKING, with a mirror lane or a port of the Charter up, that hears no holder claims a Warrant, a
secondary 100 ms after it entered SEEKING at the
earliest, and none before the lease that it last heard has lapsed. -/
def execSeekClaim (s : State) : Host.Outcome State Fault Refusal :=
  if s.par.role = .seeking ∧ s.par.claimAt = none ∧ s.lapsed = true ∧ s.cht.active.isSome ∧ (s.par.link || s.lineUp) = true
      ∧ (s.par.unit = false ∨ s.par.seekSince + 100000000 ≤ s.tim.now) then
    let s1 := s.claimEpoch
    if s.cyc.service = 2 then .next (s1.mapPar fun p => { p with claimAt := some s.cyc.k })
    else .next ((s1.setRole .active).takeWarrant.mapPar fun p => { p with claimAt := some 0xFFFFFFFF })
  else .next s

/-- A free value of feedback state, from value n on. Log 50 (DESIGN CHOICE). -/
def freeFb (n : Nat) (rem : Bool) : FbRun :=
  let f := fun (i : Nat) => Config.freeValue (n + i)
  { cLast := (f 0).setWidth 32, first := false, rebind := false, count := bit (f 1) 0, w := (f 2).toInt
    still := (f 3).toNat, standstill := bit (f 1) 1, invalid := (f 4).toNat, rem := if rem then (f 5).toInt else 0
    num := if rem then (f 6).toInt else 1, den := if rem then (f 7).toNat else 1 }

/-- The last output that a complete Escrow holds for an axis, as a hand-over takes it, in 2^−60 pu: torque at the torque point and
the voltage of the first IDQ, from the stages of the mirrored page and the offsets of the published items (R201 to R203, R373,
R378). Log 50 (DESIGN CHOICE). -/
def State.escrowOutput (s : State) (c : Charter) (r : AxisRec) (hT hD hQ : Int) : Int × Int × Int :=
  let lay := c.layoutOf r.axis
  let el := fun (k i : Nat) => match lay[k]? with
    | some b =>
      let ws := (List.range b.1.words).map fun n => s.page r.axis (b.2.1 + 4 * n)
      (elAt (Stage.ofWords ws).els i).fix60
    | none => 0
  let tau := match torquePoint r.mode lay with
    | some k => el k 0 + hT
    | none => 0
  match firstBlock 0x0111 lay with
  | some k => (tau, el k 0 + hD, el k 1 + hQ)
  | none => (tau, 0, 0)

/-- The runner state that the Escrow has brought for an axis: the frame of R153, what published items show, and the output to
hand over against, which is that of the last complete Escrow; the rest lies where R153 gives no layout, and its values are free, from
value n on. The profile generator
plans anew. Log 50 (DESIGN CHOICE). -/
def State.mirroredRun (s : State) (a n : Nat) : AxisRun :=
  let f := fun (i : Nat) => Config.freeValue (n + i)
  let item := fun (i : Nat) => entryValue (s.entryOf (sigId 1 a i))
  let pos : Nat → Pos := fun off => (s.page a (off + 8)) ++ (s.page a (off + 4)) ++ (s.page a off)
  let stat := item 0x2D
  let react := field (item 0x37) 1 0
  let off := fun (i : Nat) => (item i).toInt * 2 ^ 44
  let (hT, hD, hQ) := (off 0x38, off 0x39, off 0x3A)
  let last := (s.axis a).run
  let src := match react, field stat 4 3 with
    | 2, _ => SrcKind.quickStop
    | 3, _ => .hold
    | _, 0 => .profile
    | _, 1 => .cam
    | _, 2 => .pulse
    | _, _ => .analogue
  { AxisRun.reset with
    posCmd := pos 0x200, posFb := pos 0x20C, posLoad := pos 0x218, wRef := (f 0).toInt, aRef := (f 1).toInt
    en := bit (s.axis a).out1 16, source := src, prim := freeFb (n + 2) false, load := freeFb (n + 10) true
    pulseLast := (f 18).setWidth 32, pulseRem := (f 19).toInt, gearNum := (f 20).toInt, gearDen := (f 21).toNat
    gearNumSeen := (f 22).setWidth 32, gearDenSeen := (f 23).setWidth 32, yf := (f 24).toInt, camM := (f 25).toInt
    camExt := (f 26).toInt, camRaw := (f 27).setWidth 32, camReady := bit (f 28) 0, camWm := (f 29).toInt
    camEngage := (f 30).toInt, camStale := (f 31).toNat, masterLost := bit stat 5, profDone := bit (f 28) 1
    profX := (f 32).toInt, profRev := bit stat 20, profOver := bit stat 21
    feTimer := (item 0x36).toNat, feTrip := bit stat 13, react := react, cause := field (item 0x37) 11 8
    stopDone := bit (item 0x37) 2, hT := hT, hD := hD, hQ := hQ
    hand := if bit (s.axis a).out1 16 then .pair else .none
    outMode := match s.cht.active.bind fun c => c.axis? a with
      | some r => r.mode
      | none => 0
    tauOut := last.tauOut, vdOut := last.vdOut, vqOut := last.vqOut, q := (f 38).toInt, qLast := (f 39).toInt
    level := (f 40).toNat % 4, pulseInt := (f 41).toInt, pulseRaw := (f 42).setWidth 32, zSeen := bit (f 28) 2
    zPos := (item 0x48) ++ (item 0x47) ++ (item 0x46), stat := stat, ran := true }

/-- The stations that the holder had BOUND, at the positions that the ENR items show, counted from this unit's port (R307). The
capability words, and whether a station has acknowledged an armed swap to the holder, no record carries: they are free values. A
station that fails R326 in this unit's direction is handled under R93: it is left UNBOUND (R382). Log 50 (DESIGN CHOICE). -/
def State.mirroredLine (s : State) (c : Charter) : State :=
  let s1 := forEach (indexed c.slots) (fun (e : Nat × SlotRec) (s0 : State) =>
    let r := e.2
    let item := fun (i : Nat) => entryValue (s.entryOf (sigId 2 r.station (0x10 + i)))
    let h := field (item 0) 12 8
    let n := s.primaryPos r.port h
    if field (item 0) 3 0 = 6 ∧ 1 ≤ n ∧ n ≤ 16 then
      let v := Config.freeValue (s.freeCount + e.1)
      let caps : Word := v.setWidth 32
      (s0.mapPos r.port n fun _ =>
        { Position.reset with
          st := .bound, station := some r.station, vendor := r.vendor, model := r.model, serial := item 2 ++ item 1
          caps := caps, acked := true
          ackedFor := if bit v 32 then s.cht.armedAt.map fun c => c + 1 else none }).mapStation r.station fun t =>
        { t with present := true, stale := true, serial := item 2 ++ item 1, credit := field caps 23 16, missing := 0
                 enrolments := item 3, violations := item 4, lastLeave := item 5 }
    else s0) s
  let short := c.slots.filterMap fun r => match (s1.port r.port).posOf r.station with
    | some n => if s1.leadOk c r.station r.port n then none else some (r.port, n, r.station)
    | none => none
  forEach short (fun (e : Nat × Nat × Nat) (s : State) =>
    ((s.leadShort e.1).mapStation e.2.2 Station.gone).refuseReleased e.1 e.2.1 8) (s1.drawn c.slots.length)

/-- Tasks that the Escrow shows ready stand on their ready lists; none is in service (R373). -/
def Teller.resume (t : Teller) : Teller :=
  let t1 : Teller := { t with tasks := t.tasks.map fun (k : Task) =>
    { k with running := false, st := if k.st == .service then .waiting else k.st } }
  t1.tasks.foldl (fun t k => if k.st == .ready then { t with ready := setAt t.ready k.prio fun l => l ++ [k.num] } else t)
    { t1 with ready := List.replicate 16 [], flows := [] }

/-- The Escrow is stale: its last complete one is of a cycle below k_r − 4 (R374). -/
def Par.stale (p : Par) : Bool := !p.escrowValid || decide (p.escrow + 4 < p.renew)

/-- An arming stays in force on the new holder: the axes live at it are those that the Escrow shows live, and the stations of changed
slots are told of the swap in this direction too (R82, R382). Log 64 (DEDUCED). -/
def State.keepArming (s : State) (c : Charter) : State :=
  match s.cht.armedAt, s.cht.staged with
  | some at1, some new => (s.mapCht fun t => { t with armedLive := s.liveAxes }).tellStations c new at1
  | _, _ => s

/-- The claim frame's clearing point: the unit holds the Warrant, its stations and tasks are those of the Escrow, and its axes
hand over in their next jobs, or go to torque off where the Escrow is stale (R372 to R374, R201). -/
def State.takeOver (s : State) (c : Charter) : State :=
  let fromEscrow := s.par.role == .standby
  let stale := fromEscrow && s.par.stale
  let s1 := (s.setRole .active).takeWarrant.mapPar fun p =>
    let e1 := if p.takeStep == .goSent then setBit p.evt 3 else p.evt
    { p with takeStep := .none, evt := if stale then setBit e1 10 else e1 }
  if !fromEscrow then
    forEach c.axes (fun (r : AxisRec) (s : State) => s.outputOff r.axis) s1
  else
    let s2 := forEach c.axes (fun (r : AxisRec) (s : State) =>
      let x := s.mirroredRun r.axis s.freeCount
      (s.mapAxis r.axis fun a => { a with run := x, causes := [], outOff := x.react == 1 }).drawn 43) s1
    let s3 := ((s2.mirroredLine c).mapTeller Teller.resume).keepArming c
    if stale then
      forEach c.axes (fun (r : AxisRec) (s : State) => (s.takeCause r 7).outputOff r.axis) s3
    else s3

/-! ## Takeback and relinquish (R377 to R379) -/

/-- The cycle k_t that the pair manager names: at least 64 cycles ahead, its distance beyond that free.
Log 51 (DESIGN CHOICE). -/
def State.takeCycle (s : State) : Nat := s.cyc.num + 64 + s.free.toNat

/-- The conditions of a takeback but for the inhibit: a primary in STANDBY, ESCROW_SYNC for SETTLE ms, the mirror link up, and
no armed swap within 256 cycles of k_t (R377). Log 51 (DESIGN CHOICE). -/
def State.mayTakeBack (s : State) : Bool :=
  let settle := match s.cht.active.bind fun c => c.pairRec with
    | some r => r.settleMs
    | none => 0
  let k := s.takeCycle
  let c := s.cht.swapAt.toNat
  s.par.role == .standby && !s.par.unit && s.par.sync && decide (s.par.syncSince + settle * 1000000 ≤ s.tim.now)
    && s.par.link && s.par.takeStep == .none && s.par.claimAt.isNone
    && !(s.cht.stage == .armed && decide (c ≤ k + 256) && decide (k ≤ c + 256))

/-- The gaining unit sends its request. -/
def State.beginTakeback (s : State) : State :=
  ((s.claimEpoch.mapPar fun p =>
    { p with takeStep := .requested, takeAt := s.takeCycle, takeFrom := s.cyc.num }).sendControl 1 s.takeCycle).drawn 1

/-- TAKEBACK_START: a takeback that is not inhibited. -/
def execTakebackStart (s : State) : Host.Outcome State Fault Refusal :=
  if s.mayTakeBack && !s.par.inhibit then .next s.beginTakeback else .next s

/-- PAR_CTRL.TAKEBACK: a takeback once, inhibited or not. -/
def State.takeback (s : State) : State := if s.mayTakeBack then s.beginTakeback else s

/-- TAKEBACK. -/
def execTakeback (_src : Source) (s : State) : Host.Outcome State Fault Refusal := .next s.takeback

/-- PAR_CTRL.RELINQUISH: the holder names k_t to a standby in sync. Whether the standby is in sync is not this unit's to
know: a free value. Log 51 (DESIGN CHOICE). -/
def State.relinquish (s : State) : State :=
  if s.par.role ≠ .active ∨ s.par.takeStep ≠ .none then s
  else if s.par.link && bit s.free 0 then
    let kt := s.cyc.num + 64 + (Config.freeValue (s.freeCount + 1)).toNat
    ((s.mapPar fun p => { p with takeStep := .asked, takeAt := kt, takeFrom := s.cyc.num }).sendControl 1 kt).drawn 2
  else (s.mapPar fun p => { p with evt := setBit p.evt 4 }).drawn 2

/-- RELINQUISH. -/
def execRelinquish (_src : Source) (s : State) : Host.Outcome State Fault Refusal := .next s.relinquish

/-- INHIBIT_SET. -/
def execInhibitSet (_src : Source) (s : State) : Host.Outcome State Fault Refusal :=
  .next (s.mapPar fun p => { p with inhibit := true })

/-- INHIBIT_CLR. -/
def execInhibitClr (_src : Source) (s : State) : Host.Outcome State Fault Refusal :=
  .next (s.mapPar fun p => { p with inhibit := false })

/-- The other unit names k_t, and this one acknowledges. A standby that is asked to take the Warrant of a
relinquishing holder claims its epoch. -/
def State.takebackRequest (s : State) (kt : Nat) : State :=
  if kt ≤ s.cyc.num ∨ s.par.takeStep ≠ .none then s
  else if s.par.role = .active then (s.mapPar fun p => { p with takeStep := .acked, takeAt := kt }).sendControl 2 kt
  else if s.par.role = .standby ∧ s.par.sync = true ∧ s.par.claimAt = none then
    (s.claimEpoch.mapPar fun p => { p with takeStep := .acked, takeAt := kt, takeFrom := s.cyc.num }).sendControl 2 kt
  else s

/-- TAKEBACK_REQUEST. -/
def execTakebackRequest (kt : Nat) (s : State) : Host.Outcome State Fault Refusal :=
  .next (s.takebackRequest kt)

/-- TAKEBACK_ACK: the request is acknowledged. -/
def execTakebackAck (s : State) : Host.Outcome State Fault Refusal :=
  .next (
    if s.par.takeStep = .requested ∨ s.par.takeStep = .asked then s.mapPar fun p => { p with takeStep := .acked } else s)

/-- GO heard by a holder by its deadline of cycle k_t: it yields from that cycle on. -/
def State.hearGo (s : State) : State :=
  let inTime := decide (s.cyc.k < s.par.takeAt) || (s.cyc.k == s.par.takeAt && !s.cyc.frozen)
  if s.par.holds = true ∧ s.par.takeStep = .acked ∧ inTime = true then
    let s1 := s.mapPar fun p => { p with takeStep := .goHeard, yields := true }
    if s1.passive then s1.dropRuns.mapTeller Teller.empty else s1
  else s

/-- GO. -/
def execGo (s : State) : Host.Outcome State Fault Refusal := .next s.hearGo

/-- ABANDON: the transfer in hand is off. -/
def execAbandon (s : State) : Host.Outcome State Fault Refusal :=
  .next (if s.par.takeStep = .none then s else s.abandon 4)

/-! ## The Escrow as latched (R380) -/

/-- The type word of a record. -/
def escHead (type len : Nat) : Word := BitVec.ofNat 32 (type + len * 2 ^ 8)

/-- Code of a task's state (R261). -/
def taskCode : TaskState → Nat
  | .waiting => 1
  | .ready => 2
  | .service => 3
  | .suspended => 4

/-- Words of the hop and cut-through registers of a port. -/
def Port.delays (q : Port) : List Nat × List Nat := (q.hop, q.cut)

/-- Identifiers that an Escrow carries: those changed since the last one, or every entry listed before the first. -/
def State.escIds (s : State) : List Nat :=
  (if s.par.txK.isSome then s.par.dirtyIds else s.ledger.mem.map fun e => e.1).filter fun id => mirroredClass (idClass id)

/-- Page lines that an Escrow carries. -/
def State.escLines (s : State) : List (Nat × Nat) :=
  if s.par.txK.isSome then s.par.dirtyLines
  else ((s.pages.filter fun e => 64 ≤ e.1 % 1024).map fun e => (e.1 / 1024, e.1 % 1024 / 8)).eraseDups

/-- The tasks of the Teller as an Escrow shows them. -/
def State.escTasks (s : State) : List (Nat × Nat × Word) := s.teller.tasks.map fun k => (k.num, taskCode k.st, k.flags)

/-- Records of the Escrow of cycle k between BEGIN and END. Log 52 (DEDUCED). -/
def State.escRecords (s : State) : List (List Word) :=
  let lines := s.escLines.map fun e =>
    escHead 2 10 :: BitVec.ofNat 32 (e.1 + e.2 * 2 ^ 8) :: memReadList s.pages (pageKey e.1 (32 * e.2)) 8
  let tasks := (s.escTasks.filter fun e => !s.par.sentTasks.contains e).map fun e =>
    [escHead 3 3, BitVec.ofNat 32 (e.1 + e.2.1 * 2 ^ 12), e.2.2]
  let delays := (indexed s.teller.lists).flatMap fun e =>
    if s.par.sentLists.getD e.1 [] = e.2 then []
    else e.2.map fun d =>
      [escHead 4 5, BitVec.ofNat 32 (d.task + d.flag * 2 ^ 16 + e.1 * 2 ^ 24)] ++ twoWords d.due ++ [BitVec.ofNat 32 d.period]
  let deltas := s.escIds.map fun id =>
    let w := s.entryOf id
    [escHead 5 4, BitVec.ofNat 32 id, w.extractLsb' 0 32, w.extractLsb' 32 32]
  let ports := (indexed s.ports).filterMap fun e =>
    if s.par.sentPorts.getD e.1 (List.replicate 16 0, List.replicate 16 0) = e.2.delays then none
    else some ([escHead 6 34, BitVec.ofNat 32 e.1] ++ e.2.hop.map (BitVec.ofNat 32) ++ e.2.cut.map (BitVec.ofNat 32))
  lines ++ tasks ++ delays ++ deltas ++ ports

/-- Records packed into frames of at most 1,024 payload bytes, each whole in one frame, in order; `cur` is the frame in hand.
Log 52 (DEDUCED). -/
def packFrames (cur : List Word) : List (List Word) → List MirFrame
  | [] => if cur.isEmpty then [] else [mirFrame 2 cur]
  | r :: t => if cur.length + r.length ≤ 256 then packFrames (cur ++ r) t else mirFrame 2 cur :: packFrames r t

/-- The HEARTBEAT of a base cycle, sent at its clearing point: the pair time of its departure and the cycle number (R367).
Log 54 (DESIGN CHOICE). -/
def State.sendHeartbeat (s : State) (c : Charter) (k : Nat) : State :=
  if c.pair && s.fullService then
    s.mapPar fun p => { p.turned 1 with hbTx := (p.onLanes [mirFrame 1 (twoWords s.time ++ twoWords k)]).head? }
  else s

/-- At a clearing point where the previous Escrow has ended, the mirror engine latches that of cycle k. Two lanes carry two
bytes a nanosecond, one lane half of that (R366, R380). Log 52 (DEDUCED). -/
def State.latchEscrow (s : State) (k : Nat) : State :=
  let p := s.par
  if p.role ≠ .active ∨ p.holds = false ∨ p.link = false ∨ (p.txK.isSome && decide (s.time < p.txUntil)) = true then s
  else
    let body := s.escRecords
    let recs := ([escHead 1 4] ++ twoWords k ++ [BitVec.ofNat 32 p.epoch]) :: body
      ++ [[escHead 7 2, BitVec.ofNat 32 (body.length + 2)]]
    let bytes := recs.foldl (fun n r => n + 4 * r.length) 0
    let frames := packFrames [] recs
    s.mapPar fun p =>
      { p.turned frames.length with
        txFrames := p.onLanes frames, txK := some k, txUntil := s.time + (if p.mir.all id then bytes / 2 else bytes)
        tx := recs, dirtyIds := []
        dirtyLines := [], sentTasks := s.escTasks, sentLists := s.teller.lists, sentPorts := s.ports.map Port.delays }

/-- ESCROW_SYNC judged at a clearing point of a standby, by the cycle number it takes there (R381). -/
def Par.judgeSync (p : Par) (num now : Nat) : Par :=
  let on := p.role == .standby && p.escrowValid && decide (num ≤ p.escrow + 4)
  if on = p.sync then p
  else if on then { p with sync := true, syncSince := now, evt := setBit p.evt 8 }
  else { p with sync := false, evt := setBit p.evt 7 }

/-! ## The Escrow as received (R380) -/

/-- A record of the Escrow that comes in on a standby. -/
def escRecord (s : State) (n : Nat) (f : State → State) : State :=
  if s.par.role == .standby && s.par.rxK.isSome then f (s.mapPar fun p => { p with rxCount := p.rxCount + n }) else s

/-- ESCROW_BEGIN: the renewal of cycle k is heard, and its Escrow opens. -/
def execEscrowBegin (k epoch : Nat) (s : State) : Host.Outcome State Fault Refusal :=
  .next (
    if epoch < s.heardEpoch ∨ s.par.holds = true then s.mapPar fun p => { p with highest := max p.highest epoch }
    else (s.hear epoch (some k) none).mapPar fun p => { p with rxK := some k, rxCount := 1 })

/-- ESCROW_LINE: eight words of line 8 to 127 of a page. -/
def execEscrowLine (axis line : Nat) (words : List Word) (s : State) : Host.Outcome State Fault Refusal :=
  .next (escRecord s 1 fun s =>
    if 8 ≤ line ∧ line < 128 ∧ axis < 256 then s.setPageWords axis (32 * line) (words.take 8) else s)

/-- ESCROW_TASK: state and flags of a task. -/
def execEscrowTask (task st : Nat) (flags : Word) (s : State) : Host.Outcome State Fault Refusal :=
  .next (escRecord s 1 fun s => s.mapTeller fun t => t.mapTask task fun k =>
    { k with
      flags := flags
      st := match st with
        | 1 => .waiting
        | 2 => .ready
        | 3 => .service
        | 4 => .suspended
        | _ => k.st })

/-- ESCROW_DELAY: a delay list replaced as a whole; a TIMER binding stands behind an entry with its period. -/
def execEscrowDelay (list : Nat) (entries : List DelayRec) (s : State) : Host.Outcome State Fault Refusal :=
  .next (escRecord s entries.length fun s => s.mapTeller fun t =>
    let es : List Delay := entries.map fun e =>
      { task := e.task, flag := e.flag, due := e.due, period := e.period
        timer := t.binds.any fun b => b.kind == 0x0A && b.task == e.task && b.bit == e.flag && b.index == e.period }
    { t with lists := setAt t.lists list fun _ => es.foldl (fun l e => insertDelay e l) [] })

/-- ESCROW_DELTA: requester 23 writes an entry of a mirrored class. -/
def execEscrowDelta (id : Nat) (entry : Word64) (s : State) : Host.Outcome State Fault Refusal :=
  .next (escRecord s 1 fun s =>
    if mirroredClass (idClass id) then (s.transfer 23).writeEntry 23 id entry else s)

/-- Hop and cut-through delays of the holder's side seen from this unit's: the order of the line is the other way round, and
the hop into its first station is what is left of the delay of the whole line (R373). Log 73 (DEDUCED). -/
def Port.fromOther (q : Port) (hops cuts : List Nat) : Port :=
  let n := (hops.takeWhile fun h => h != 0).length
  let sum := fun (l : List Nat) => (l.take n).foldl (fun a b => a + b) 0
  let first := q.lineUi - sum hops - sum cuts
  let hop : List Nat := (List.range 16).map fun i => if n ≤ i then 0 else if i = 0 then first else hops.getD (n - i) 0
  { q with
    found := n, hop := hop, cut := (List.range 16).map fun i => if n ≤ i then 0 else cuts.getD (n - 1 - i) 0
    lineN := n, hopHist := hop.map fun (h : Nat) => if h = 0 then [] else [2 * (h : Int)] }

/-- Stations of a port that the holder has BOUND, whose slots fail R326 in this unit's direction (R382). -/
def State.leadShortHere (s : State) (c : Charter) (p : Nat) : Bool :=
  c.slots.any fun r =>
    let enr := entryValue (s.entryOf (sigId 2 r.station 0x10))
    r.port == p && field enr 3 0 == 6
      && !s.leadFits c r.station p (s.primaryPos p (field enr 12 8)) (s.port p).tc 1000

/-- ESCROW_PORT: the delays of a line. -/
def execEscrowPort (port : Nat) (hops cuts : List Word) (s : State) : Host.Outcome State Fault Refusal :=
  .next (escRecord s 1 fun s =>
    let s1 := s.mapPort port fun q => q.fromOther (hops.map fun w => w.toNat) (cuts.map fun w => w.toNat)
    match s.cht.active with
    | some c => if s1.leadShortHere c port then s1.mapPar fun p => { p with evt := setBit p.evt 11 } else s1
    | none => s1)

/-- The output that a hand-over would take from the Escrow just complete, of an axis of the active Charter. -/
def State.escrowLast (s : State) (a : Nat) : Int × Int × Int :=
  let off := fun (i : Nat) => (entryValue (s.entryOf (sigId 1 a i))).toInt * 2 ^ 44
  match s.cht.active.bind fun c => (c.axis? a).map fun r => (c, r) with
  | some (c, r) => s.escrowOutput c r (off 0x38) (off 0x39) (off 0x3A)
  | none => (0, 0, 0)

/-- The output of an axis as the Escrow just complete shows it: the words for a claim frame, off under torque off, and what a hand-over
takes. -/
def State.keepLast (s : State) (a : Nat) (x : Axis) : Axis :=
  let off := field (entryValue (s.entryOf (sigId 1 a 0x37))) 1 0 == 1
  let out := s.escrowLast a
  { x with
    out0 := if off then 0 else s.page a 0x100, out1 := if off then 0 else s.page a 0x104
    run := { x.run with tauOut := out.1, vdOut := out.2.1, vqOut := out.2.2 } }

/-- The Escrow of cycle k is complete: its output words and its outgoing values are kept for a claim frame and the hand-over after it,
and a transfer that waits for it goes on with GO (R201, R373, R378). -/
def State.escrowDone (s : State) (k : Nat) : State :=
  let s1 : State := { s with axes := (indexed s.axes).map fun e => s.keepLast e.1 e.2 }
  let s2 := s1.mapPar fun p => { p with escrow := k, escrowValid := true }
  if s.par.takeStep = .acked ∧ k + 1 = s.par.takeAt then
    (s2.mapPar fun p => { p with takeStep := .goSent, claimAt := some p.takeAt }).sendControl 3 s.par.takeAt
  else s2

/-- ESCROW_END: with the right count of records, BEGIN and END among them, the Escrow is complete. -/
def execEscrowEnd (count : Nat) (s : State) : Host.Outcome State Fault Refusal :=
  match s.par.rxK with
  | some k =>
    if s.par.role ≠ .standby then .next s
    else
      let s1 := s.mapPar fun p => { p with rxK := none }
      .next (if s.par.rxCount + 1 = count then s1.escrowDone k else s1)
  | none => .next s

end Sys2Proof.Machine
end

