-- ==== Sys2Proof/Machine/Clearing.lean ====
section
/-!
DEFINITION. The clearing point (04_control_cycle, R89 to R96, R103, R104): everything that the chapters let happen there, in one
order.
-/
namespace Sys2Proof.Machine
open Sys2Proof

/-! ## Reactions (R103, R197) -/

/-- The job that a clearing point closes overran. -/
def Axis.overran (x : Axis) (d k : Nat) : Bool := x.jobK + d == k + 1 && !x.inTime

/-- An overrun leaves the consecutive count at the limit, and no torque off is in force: under torque off the count keeps
rising and nothing further is taken (R103). -/
def Axis.limitReached (x : Axis) (r : AxisRec) (d k : Nat) : Bool :=
  x.overran d k && decide (r.overrunLimit ≤ x.ovrConsec) && x.run.react != 1

/-- The count of an axis whose overruns have reached the limit is 0 again; where no reaction was in force it has taken its
overrun REACTION (R103). -/
def State.overrunTaken (s : State) (r : AxisRec) (fresh : Bool) : State :=
  let s1 := s.mapAxis r.axis fun x => { x with ovrConsec := 0 }
  if fresh then s1.mapCyc fun y => { y with rxnAxis := setBit y.rxnAxis r.axis, evt := setBit y.evt 1 } else s1

/-- One axis whose output the clearing point of cycle k releases: the causes found by the cycle block take effect together,
and together with those of the job whose output is released, if one was in time (R103, R197). Log 74 (DEDUCED). -/
def State.closeCauses (s : State) (c : Charter) (r : AxisRec) : State :=
  if c.closes r s.cyc.k then
    let x := s.axis r.axis
    let limit := x.limitReached r (c.axisDiv r) s.cyc.k
    let s1 := s.mapAxis r.axis fun x =>
      { x with causes := [], run := { x.run with reactNew := x.run.reactNew && x.inTime } }
    let s2 := s1.takeCauses r (x.causes ++ (if limit then [2] else []))
    if limit then s2.overrunTaken r (x.run.react == 0) else s2
  else s

/-! ## The pair at a clearing point (R372, R376, R378) -/

/-- A transfer in hand at the clearing point of cycle k: a request not acknowledged in 16 cycles is abandoned; a holder that
yields holds the Warrant no longer; a claim comes into force. Log 53 (DEDUCED). -/
def State.pairClearing (s : State) (c : Charter) (k : Nat) : State :=
  let p := s.par
  let s1 :=
    if (p.takeStep = .requested ∨ p.takeStep = .asked) ∧ p.takeFrom + 16 ≤ k then s.abandon 4
    else if p.holds = true ∧ p.takeStep = .acked ∧ p.takeAt ≤ k then s.mapPar fun p => { p with takeStep := .none }
    else s
  let s2 := if s1.par.holds && s1.par.claimAt != some k then s1.mapPar fun p => { p with claimAt := none } else s1
  if s2.par.yields && decide (s2.par.takeAt ≤ k) then
    if s2.par.role = .active then
      (s2.stepDown.setRole s2.lesserRole).mapPar fun p => { p with evt := setBit p.evt 3 }
    else s2.stepDown
  else if s2.par.claimAt == some k && !s2.par.holds then s2.takeOver c
  else s2

/-! ## What is published and sent (R286, R328, R349) -/

/-- STN_STAT. -/
def Station.stat (t : Station) : Nat :=
  let p := t.present
  flagAt p 0 + flagAt (p && t.ready) 1 + flagAt (p && t.locked) 2 + flagAt (p && t.holdOff) 3 + flagAt t.stale 4
    + flagAt (p && t.evtLate) 5

/-- The position that holds a station of a SLOT record, or a station that held its number last and holds none: its number and
itself (R349). -/
def State.placeOf (s : State) (r : SlotRec) : Nat × Position :=
  let q := s.port r.port
  match q.posOf r.station with
  | some n => (n, q.at n)
  | none => match (indexed q.pos).find? fun e => e.2.st != .absent && e.2.station.isNone && e.2.refused == some r.station with
    | some e => (e.1 + 1, e.2)
    | none => (0, Position.reset)

/-- The items of one station. STN_STAT, CUT_UI and DIN rest on its return slot, and carry STALE where that was not used (R285). -/
def State.publishStation (s : State) (r : SlotRec) (stamp : Nat) : State :=
  let t := s.station r.station
  let (n, q) := s.placeOf r
  let port := s.port r.port
  let d : Int := if n = 0 || q.station.isNone then 0 else port.delay n
  let enr := posCode q.st + q.reason * 16 + s.primaryPos r.port n % 32 * 2 ^ 8 + flagAt (!q.degr.isEmpty) 13
  let serial := twoWords t.serial.toNat
  let items : List (Nat × Word) :=
    [(0, BitVec.ofNat 32 t.stat), (1, BitVec.ofInt 32 d), (2, BitVec.ofNat 32 t.cutUi),
     (3, BitVec.ofNat 32 (if n = 0 || q.station.isNone then 0 else port.hop.getD (n - 1) 0)),
     (4, t.din), (0x10, BitVec.ofNat 32 enr),
     (0x11, serial.getD 0 0), (0x12, serial.getD 1 0), (0x13, t.enrolments), (0x14, t.violations), (0x15, t.lastLeave)]
  forEach items (fun (e : Nat × Word) (s : State) => (s.transfer 21).publish 21 (sigId 2 r.station e.1) e.2
    (t.stale && (e.1 == 2 || e.1 == 4 || (e.1 == 0 && t.present))) false stamp) s

/-- DOUT and DOUT_EN in force for the frame that the clearing point releases. -/
def State.latchDout (s : State) (r : SlotRec) : State :=
  let (v, s1) := s.readValues [sigId 2 r.station 5, sigId 2 r.station 6]
  s1.mapStation r.station fun t => { t with dout := v.getD 0 0, doutEn := v.getD 1 0 }

/-- What a unit with the Warrant takes from the Ledger and puts there at the clearing point of cycle k, under the Charter that
runs from it: commands of the axes that sample next, station outputs, station items. Stations whose SLOT records the swap at
this clearing point has removed show PRESENT 0 (R463). -/
def State.ledgerClearing (s : State) (c : Charter) (gone : List SlotRec) (k : Nat) : State :=
  if s.reduced || !s.ledger.ready || !s.par.holds then s
  else
    let s1 := forEach c.axes (fun (r : AxisRec) (s : State) => if c.closes r k then s.takeCommands c r.axis else s) s
    let s2 := forEach (gone ++ c.slots) (fun (r : SlotRec) (s : State) => s.publishStation r (k % 2 ^ 24)) s1
    forEach c.slots (fun (r : SlotRec) (s : State) => s.latchDout r) s2

/-! ## The instant -/

/-- The Charter that runs from the clearing point of cycle k is derate-safe; the holding Charter counts as that while no Charter is
active (R32, R34, R35). -/
def State.safeFrom (s : State) (swaps : Bool) : Bool :=
  s.cht.active.isNone || (if swaps then s.cht.stagedSafe else s.cht.activeSafe)

/-- Base cycles with EN 1 in the output are energised time (R424). -/
def State.countEnergised (s : State) : State :=
  let t := s.period
  { s with axes := s.axes.map fun x => if bit x.out1 16 then { x with energised := x.energised + t } else x }

/-- The cycle number, the cycle in hand and its t(k) advance (R15, R24, R407). -/
def State.nextCycle (s : State) (k : Nat) : State :=
  let full := s.fullService
  { s with
    cyc := { s.cyc with
      num := if full then k else 0, numValid := s.cyc.numValid || full, k := k + 1, tk := s.cyc.tk + s.period
      sampled := false, frozen := false }
    bst := if full then s.bst else { s.bst with rsvCycle := BitVec.ofNat 64 k } }

/-- The clearing point of the cycle in hand under a Charter. Log 53 (DEDUCED). -/
def State.clearing (s : State) (c : Charter) : State :=
  let k := s.cyc.k
  let swaps := s.fullService && s.cht.stage == .armed && s.cht.swapAt.toNat == k && s.cht.staged.isSome
  let s0 := if s.par.holds then s.missReturns c else s
  let s1 := if s.par.holds then s0.leaveMissing else s0
  let s2 := s1.derateAtClearing (s1.safeFrom swaps)
  let s3 := if s2.passive then s2 else forEach c.axes (fun (r : AxisRec) (s : State) => s.closeCauses c r) s2
  let s4 := (s3.countEnergised).pairClearing c k
  let s5 := match swaps, s4.cht.staged with
    | true, some new => s4.swap c new
    | _, _ => s4
  let s5 := s5.dscAgain
  let s6 := match s5.charter with
    | some c' => s5.ledgerClearing c' (c.slots.filter fun r => (c'.slot? r.station).isNone) k
    | none => s5
  let h := match swaps, s4.cht.staged with
    | true, some new => s6.writeHold new
    | _, _ => s6
  let s7 := { h with
    lanes := h.lanes.map fun (l : Lane) => { l with urgentUsed := 0 }
    io := { h.io with gpioOutR := h.io.gpioOutW, gpioEnR := h.io.gpioEnW } }
  let s8 := if s7.reduced then s7 else s7.acqClearing c k
  let s9 := ((s8.mapPtb Ptb.apply).resume.latchEscrow k).sendHeartbeat c k
  let s10 := (s9.nextCycle k).mapPar fun p => p.judgeSync k s.tim.now
  (s10.raise 1 0 k).newFrames

/-- CLEARING_POINT: the clearing point of the cycle in hand; the instant t(0) − L_max stands as that of cycle −1 (R87). -/
def execClearingPoint (s : State) : Host.Outcome State Fault Refusal :=
  match s.cht.phase, s.cht.active, s.charter with
  | .toT0, some c, _ => if s.cyc.frozen then .next (s.leadIn c) else .next s
  | _, _, some c => if s.cyc.service = 0 ∨ !s.cyc.sampled then .next s else .next (s.clearing c)
  | _, _, none => .next s

end Sys2Proof.Machine
end

