-- ==== Sys2Proof/Machine/Commit.lean ====
section
/-!
DEFINITION. DONE and the commit of an axis job (04_control_cycle and 05_lanes, R99, R101, R142, R143), with the Daybook counts
of the axis (R424) and the completion of a run that was in service at a swap (R84 to R86).
-/

namespace Sys2Proof.Machine

/-! ## DONE (R99, R101, R142, R143, R424) -/

/-- An enrolment that came about while the job ran stands in the committed feedback. -/
def FbRun.merge (nx base cur : FbRun) : FbRun :=
  { nx with
    rebind := nx.rebind || (cur.rebind && !base.rebind)
    first := nx.first || (cur.first && !base.first) }

/-- Flags of the live runner state that came about while the job ran stand in the committed one. -/
def AxisRun.merge (nx base cur : AxisRun) : AxisRun :=
  { nx with
    hand := if cur.hand == base.hand then nx.hand else cur.hand
    rejoinClear := nx.rejoinClear || (cur.rejoinClear && !base.rejoinClear)
    needOff := nx.needOff || (cur.needOff && !base.needOff)
    holdStart := cur.holdStart && !base.holdStart
    prim := nx.prim.merge base.prim cur.prim
    load := nx.load.merge base.load cur.load }

/-- The Daybook counts of an axis after a committed job: travel, reversals, and the fault of a reaction entered (R424). -/
def Axis.dayCount (a : Axis) (nx base : AxisRun) (dirEvt : Bool) : Axis :=
  { a with
    travel := a.travel + (nx.posFb.toInt / 2 ^ 32 - base.posFb.toInt / 2 ^ 32).natAbs
    reversals := a.reversals + (if dirEvt then 1 else 0)
    faults := if nx.react ≠ 0 ∧ base.react = 0 then setAt a.faults (nx.cause - 1) (· + 1) else a.faults }

/-- The marked lines of a lane's commit buffer written to the axis page as one step (R99). -/
def State.commitLines (s : State) (n a : Nat) : State :=
  let l := s.lane n
  forEach l.marks (fun m s => s.setPageWords a (32 * m) (memReadList l.ram (0x400 + 8 * m) 8)) s

/-- The instant of the deadline of an axis job (R94). -/
def State.jobDeadline (s : State) (j : Job) : Nat := s.sampleDeadline j.k j.d

/-- The commit of a job at DONE would begin at or after its deadline: the job overruns (R101, R104). -/
def State.doneLate (s : State) (j : Job) : Bool := j.axis.isSome && decide (s.jobDeadline j ≤ s.time)

/-- The axis job of a lane committed under the Charter in force. -/
def State.commitJob (s : State) (n a : Nat) (j : Job) : State :=
  let l := s.lane n
  let s1 := (s.commitLines n a).mapPar fun p => p.dirtyPage a l.marks
  let s2 := match j.next, j.base with
    | some nx, some base => s1.mapAxis a fun x =>
        { x.dayCount nx base (bit (l.image 0x24) 3) with run := nx.merge base x.run }
    | _, _ => s1
  (s2.mapAxis a fun x => if x.jobK = j.k then { x with inTime := true, ovrConsec := 0, outOff := false } else x).mapCyc fun y =>
    { y with slackMin := BitVec.ofNat 32 (min y.slackMin.toNat (s.jobDeadline j - s.time)) }

/-- The axis job of a lane committed. A job in service at a swap completes under the outgoing Charter: the treatment of the axis
at the swap is carried out on what it leaves; a job whose axis is removed or starts afresh leaves nothing (R84 to R86). -/
def State.commitAxis (s : State) (n a : Nat) (j : Job) : State :=
  match s.cht.outgoing, s.cht.active with
  | some o, some new =>
    if o.cycle < j.k then s.commitJob n a j
    else match axisChange o.charter new a with
      | .unchanged => s.commitJob n a j
      | .absent | .removed | .added => s
      | .params | .structural | .rejected =>
        if (s.axis a).run.needOff && !(j.base.map fun b => b.needOff).getD false then s
        else
          let l := s.lane n
          let s1 := s.setPageWords a 0x300 (l.imageWords 0x300 832)
          (((s1.commitJob n a j).swapAxis o.charter new o.live a).putWrites
            (o.writes.filter fun e => e.1 / 1024 == a))
  | _, _ => s.commitJob n a j

/-- The stop at the deadline taken by a run that comes to DONE then: its task has no run in that sample cycle any more, and R262
applies to the flags set while it was in service (R101, R281). -/
def State.stopLate (s : State) (lane : Nat) (j : Job) : State :=
  (s.mapTeller fun t => t.mapTask j.task fun k => { k with shut := max k.shut (j.k + 1) }).endRun lane

/-- DONE: the marked lines are committed as one step, LFLG joins LNE_ARITH, and the lane commits until COMMIT_COMPLETE.
At or after the deadline of the job the stop is taken and DONE has no effect (R104, R281). DONE by lane code raises PRIV. -/
def execDone (lane : Nat) (s : State) : Host.Outcome State Fault Refusal :=
  let l := s.lane lane
  match l.job with
  | none => .next s
  | some j =>
    match j.phase, l.state with
    | .code, _ => .next (s.laneStop lane (.fault fPriv))
    | .handed, _ => .next s
    | .stalled, _ => .next s
    | .finished, .committing => .next s
    | .finished, .waiting => .next s
    | .finished, _ =>
      if s.doneLate j then .next (s.stopLate lane j) else
      let s1 := match j.axis with
        | some a => s.commitAxis lane a j
        | none => s
      .next (s1.mapLane lane fun l => { l with state := .committing, jobs := l.jobs + 1, arith := l.arith ||| l.lflg })

end Sys2Proof.Machine
end

