-- ==== Sys2Proof/Machine/PowerUp.lean ====
section
/-!
DEFINITION. Power-up (17_power_up): device reset, the test waves, keys and JTAG, release, the start of reduced service, and the
requests to the Strongroom.
-/
namespace Sys2Proof.Machine
open Sys2Proof

/-! ## Reset (R398, R424, R433) -/

/-- OUTAGE: the calendar at the last brown-out, and now. -/
def State.dayOutage (s : State) : State := s.dayAdd 5 (twoWords s.tim.pfail.toNat ++ twoWords s.tim.calSec.toNat)

/-- DEVICE_RESET: a first power-up or RESET_N low. The device stays in reset until RESET_RELEASE; PAIRSEL is sampled. A
power-up, which follows a removal of VCORE, clears JTAG_LOCKOUT, and DRAM holds nothing. -/
def execDeviceReset (cause : ResetCause) (pairsel : Bool) (s : State) : Host.Outcome State Fault Refusal :=
  let s1 := match cause with
    | .resetN => s.deviceReset 1 true
    | .powerUp =>
      let s0 := s.deviceReset 0 true
      { s0 with
        dram := [], srm := { s0.srm with lockout := false }, dbk := { s0.dbk with powerCycles := s0.dbk.powerCycles + 1 } }
  .next (s1.mapPar fun p => { p with unit := pairsel })

/-- RESET_RELEASE: VCORE has stayed above 0.680 V for 1 ms with RESET_N high, and the PLL begins to lock. After a power-up or a
brown-out an OUTAGE record is made. -/
def execResetRelease (s : State) : Host.Outcome State Fault Refusal :=
  if s.bst.inReset then
    let s1 := s.mapBst fun b => { b with inReset := false }
    .next (if s.bst.cause = 0 ∨ s.bst.cause = 2 then s1.dayOutage else s1)
  else .next s

/-- PLL_LOCK: device time starts at 0, the Strongroom zeroises its key RAM and reads it back, and self-test begins with wave 0,
at whose end the read-back is judged. The measured REFCLK offset is a free value. Log 43 (DESIGN CHOICE). Log 55 (DEDUCED). -/
def execPllLock (s : State) : Host.Outcome State Fault Refusal :=
  if s.bst.inReset || s.clk.lock || s.clk.holdover then .next s
  else
    .next { s.drawn 1 with
      clk := { s.clk with lock := true, refOffs := s.free.setWidth 16 }
      tim := { s.tim with now := 0, edges := 0 }
      srm := { s.srm with zeroised := true, keyRam := none }
      bst := { s.bst with running := true, wave := 0 } }

/-! ## Verdicts (R399, R400, R403, R444) -/

/-- The Assay of a segment against the count and the signature that the ROM holds for it (R403). -/
def segAssay (rom : Word × Word64) (r : SegResult) : Verdict :=
  if r.done && r.count == rom.1 then (if r.sig == rom.2 then .pass else .fail) else .incomplete

/-- The Assays of the segments of a wave, in order. -/
def segAssays (rom : List (Word × Word64)) (segs : List SegResult) : List Verdict :=
  (indexed segs).map fun e => segAssay (rom.getD e.1 (0, 0)) e.2

/-- The segments of a wave as they ran: no scan chain is enabled in wave 0 while ZEROISED is 0, and none of its segments ends
(R401). -/
def segsRun (wave : Nat) (segs : List SegResult) (m : WaveMeas) : List SegResult :=
  if wave = 0 ∧ m.keyRamZero = false then segs.map fun r => { r with done := false } else segs

/-- The worse of two verdicts: PASS, then INCOMPLETE, then FAIL. -/
def Verdict.worse (a b : Verdict) : Verdict :=
  if a = .fail ∨ b = .fail then .fail
  else if a = .incomplete ∨ b = .incomplete then .incomplete
  else .pass

/-- The absolute value is at most n. -/
def within (v : Int) (n : Int) : Bool := decide (-n ≤ v) && decide (v ≤ n)

/-- The references pass: both readings within 1.0 % of nominal and within 0.5 % of each other. -/
def refsOk (m : WaveMeas) : Bool :=
  m.refs.all fun p => within p.1 100 && within p.2 100 && within (p.1 - p.2) 50

/-- Temperature spread, 0.1 °C. -/
def tempSpread (m : WaveMeas) : Nat :=
  match m.temps with
  | [] => 0
  | t :: ts => (ts.foldl max t - ts.foldl min t).toNat

/-- The root PLL is locked with a jitter of at most 1.5 ps rms. -/
def pllOk (m : WaveMeas) : Bool := m.pllLocked && decide (m.pllJitterFs ≤ 1500)

/-- The loop-back of a Tabna serialiser: no bit error, and an eye height of at least 15. -/
def serOk (e : Nat × Nat) : Bool := e.1 == 0 && decide (15 ≤ e.2)

/-- Bits of BST_ANA that the checks of a wave set. -/
def anaBits (m : WaveMeas) (wave : Nat) : Nat :=
  if wave = 0 then
    flagAt (!refsOk m) 0 + flagAt (!m.ainDev.all fun v => within v 64) 1 + flagAt (!pllOk m) 2
      + flagAt (decide (60 < tempSpread m)) 3
  else if wave = 1 then flagAt (m.mir.getD 0 0 != 0) 4 + flagAt (m.mir.getD 1 0 != 0) 5
  else 0

/-- Bits of BST_SERFAIL. -/
def serBits (m : WaveMeas) : Word :=
  (indexed (m.ser.take 32)).foldl (fun w (e : Nat × Nat × Nat) => if serOk e.2 then w else setBit w e.1) 0

/-- DRAM passes: at least 1 GiB, the same on both interfaces, and training complete. -/
def dramFit (m : WaveMeas) : Bool := decide (1024 ≤ m.dram0 + m.dram1) && m.dram0 == m.dram1 && m.trained

/-- The checks of a wave besides its segments pass. -/
def checksOk (m : WaveMeas) (wave : Nat) : Bool :=
  match wave with
  | 0 => anaBits m 0 == 0 && m.keyRamZero
  | 1 => anaBits m 1 == 0 && serBits m == 0
  | 5 => dramFit m
  | _ => true

/-- The verdict of a wave: the worst of its segment Assays and its checks. Log 55 (DEDUCED). -/
def waveVerdict (wave : Nat) (assays : List Verdict) (m : WaveMeas) : Verdict :=
  assays.foldl Verdict.worse (if checksOk m wave then .pass else .fail)

/-- BST_FAILSEG: the wave and its first segment that is not PASS. Log 55 (DEDUCED). -/
def failSegOf (wave : Nat) (assays : List Verdict) : Option Word :=
  (assays.findIdx? fun v => v != Verdict.pass).map fun i => BitVec.ofNat 32 (wave + i % 256 * 256)

/-! ## Release (R404, R418, R34) -/

/-- Code of a verdict. -/
def verdictCode : Verdict → Nat
  | .none => 0
  | .pass => 1
  | .fail => 2
  | .incomplete => 3

/-- ASSAY: verdict, BST_FAILSEG, BST_ANA and the reset cause, written by the self-test controller itself, released or not
(R403, R424). -/
def State.dayAssay (s : State) : State :=
  let r : DbkRec := { type := 3, stamp := s.stamp.toNat, live := false
                      content := [BitVec.ofNat 32 (verdictCode s.bst.verdict), s.bst.failSeg, s.bst.ana, BitVec.ofNat 32 s.bst.cause] }
  s.mapDbk fun d => d.write [r]

/-- DBK_REGION as the boot-flash header gives it: 256 to 1,024 sectors and a base, free values of the board. -/
def regionOf (v : Word64) : Word := BitVec.ofNat 32 (256 + field v 31 0 % 769 + field v 47 32 * 65536)

/-- Release: RELEASED; where the signature of the firmware is valid SVC starts, copies the application image to DRAM and releases
APP0 to APP3 (R19, R404); the journal is mounted, and an epoch claimed before is journalled (R425); the restore of VCORE begins
from 0.80 V; a derating that the Daybook records is asked for again. Log 96 (DESIGN CHOICE). -/
def State.release (s : State) : State :=
  let s1 : State := { s.drawn 1 with
    bst := { s.bst with released := true, evt := setBit s.bst.evt 1, svcRun := s.bst.fwOk, appRun := s.bst.fwOk }
    dbk := { s.dbk with ready := true, region := if s.dbk.region = 0 then regionOf s.free else s.dbk.region }
    age := { s.age with vcore := 800 } }
  let s2 := ((if s.bst.fwOk then s1.dramPut 0x801000000 s.bst.image else s1).journalEpoch).restoreStep
  if s.dbk.derated then (s2.mapAge fun a => { a with planned := true }).derateWrite 1 else s2

/-- Release where the device Assay is PASS and key derivation is blocked by JTAG_LOCKOUT. -/
def State.releaseLocked (s : State) : State :=
  if s.bst.verdict = .pass ∧ s.srm.lockout = true ∧ s.bst.released = false then s.release else s

/-- Self-test ends: the device Assay is formed and recorded; other than PASS it leaves the device unreleased. -/
def State.testEnds (s : State) (v : Verdict) : State :=
  let s1 := (s.mapBst fun b =>
    { b with running := false, verdict := v, evt := if v = .pass then b.evt else setBit b.evt 2 }).dayAssay
  s1.releaseLocked

/-- The wave in hand ends with what its segments and checks show. After wave 1 the link engines start from a firmware image
whose signature is valid, and the Strongroom checks the holding block (R19, R404, R405). Log 96 (DESIGN CHOICE). -/
def State.waveEnds (s : State) (segs : List SegResult) (m : WaveMeas) : State :=
  if !s.bst.running then s
  else
    let n := s.bst.wave
    let ran := segsRun n segs m
    let assays := segAssays (s.bst.rom.getD n []) ran
    let v := waveVerdict n assays m
    let s1 := s.mapBst fun b =>
      { b with
        segs := ran
        waves := putAt b.waves n (v, m.ms), evt := setBit b.evt 0, ana := b.ana ||| BitVec.ofNat 32 (anaBits m n)
        failSeg := (failSegOf n assays).getD b.failSeg
        serFail := if n = 1 then serBits m else b.serFail
        tSpread := if n = 0 then tempSpread m % 256 else b.tSpread }
    let s2 := if n = 0 ∧ m.keyRamZero = false then s1.mapSrm fun r => { r with zeroised := false } else s1
    if v ≠ .pass then (if n ≤ 1 then s2.mapBst fun b => { b with rsvReason := 2 } else s2).testEnds v
    else if n = 1 then
      s2.mapBst fun b => { b with wave := 2, linkRun := b.fwOk, listening := true, heard := false, holdSeen := true }
    else if 5 ≤ n then { s2 with dramMib := m.dram0 + m.dram1 }.testEnds .pass
    else s2.mapBst fun b => { b with wave := n + 1 }

/-- WAVE_END: all segments of the wave have ended. -/
def execWaveEnd (segs : List SegResult) (meas : WaveMeas) (s : State) : Host.Outcome State Fault Refusal :=
  .next (s.waveEnds segs meas)

/-- WAVE_TIME_LIMIT: segments still running are stopped, and the wave ends. -/
def execWaveTimeLimit (segs : List SegResult) (meas : WaveMeas) (s : State) : Host.Outcome State Fault Refusal :=
  .next (s.waveEnds segs meas)

/-! ## Keys and JTAG (R401, R402, R404, R414) -/

/-- KEYS_READY: key derivation, which follows an Assay of PASS and is blocked by JTAG_LOCKOUT, ends with the working keys in the key
RAM, and the device is released. The keys themselves are a free value. -/
def execKeysReady (s : State) : Host.Outcome State Fault Refusal :=
  if s.bst.verdict = .pass ∧ s.srm.lockout = false ∧ s.bst.released = false then
    .next ((s.mapSrm fun r => { r with keysReady := true, keyRam := some s.freeCount }).drawn 1).release
  else .next s

/-- JTAG_INSTRUCTION: IDCODE answers always; all but IDCODE and BYPASS is executed as BYPASS while JTAG_OPEN is 0. An accepted
one that reaches any scan chain zeroises the key RAM, clears KEYS_READY and sets JTAG_LOCKOUT. Log 86 (DESIGN CHOICE). -/
def execJtagInstruction (i : JtagInstr) (s : State) : Host.Outcome State Fault Refusal :=
  match i with
  | .idcode => .next { s with readData := 0x0256054B }
  | .bypass => .next s
  | .scan | .boundary =>
    if s.srm.jtagOpen && !s.srm.lockout then
      .next (s.mapSrm fun r => { r with keysReady := false, lockout := true, keyRam := none }).releaseLocked
    else .next s

/-! ## Reduced service (R405 to R408) -/

/-- The holding block is valid. -/
def holdValid (h : Option HoldBlock) : Bool :=
  match h with
  | some b => b.digest == b.sum && b.format == 1
  | none => false

/-- The ports that the sources and the target of an axis of the holding block lie on; 32 stands for the device itself. Primary
feedback that is not local comes from the station of the target (R22). -/
def holdPorts (h : HoldBlock) (r : AxisRec) : List Nat :=
  let portOf := fun (w : Word) => if isLocal w then some 32 else
    (h.slots.find? fun x => x.slot.station == field w 8 0).map fun x => x.slot.port
  ((portOf r.target).toList ++ (if r.mode = 2 then [] else (portOf (if isLocal r.primary then r.primary else r.target)).toList)
    ++ (if bit r.loadFb 30 then (portOf r.loadFb).toList else [])).eraseDups

/-- The holding block as the Charter that reduced service runs: its slots with MATCH 0 and REJOIN 1, its axes at the one rate
with OVERRUN_LIMIT 4, each with its standard chain and one task that its returns start. Log 57 (DESIGN CHOICE). -/
def HoldBlock.charter (h : HoldBlock) : Charter :=
  let ports := (h.slots.map fun x => x.slot.port).eraseDups
  let axes := h.axes.map fun x => { x.axisRec with rate := 3, phase := 0, reaction := 0, overrunLimit := 4 }
  { derateWaive := false, test := false, pair := false, charterId := h.charterId, digest := [], keySlot := 0, baseRate := 3
    ratesUsed := 8
    ports := ports.map fun p =>
      { port := p, returnDue := 60000, issueLead := 60000
        medium := match h.slots.find? fun x => x.slot.port == p with | some x => x.medium | none => 0 }
    slots := h.slots.map fun x => { x.slot with matchKind := 0, rejoin := 1 }
    axes := axes
    chains := h.axes.map fun x => { axis := x.axisRec.axis, blocks := x.blocks }
    tasks := axes.map fun r =>
      { task := r.axis, prio := 0, flow := r.axis, mask := BitVec.ofNat 32 (2 ^ (holdPorts h r).length - 1), all := true
        entry := 0, cost := 0, rate := 3, axisTask := true }
    binds := axes.flatMap fun r => (indexed (holdPorts h r)).map fun (e : Nat × Nat) =>
      { kind := 2, index := e.2, task := r.axis, bit := e.1 }
    layout := none, pins := [], inits := [], classes := [], windowLen := 4096, urgentBeats := 64, pairRec := none
    ageing := { permit := true, vcoreMax := 850, reservePs := 60, warnDays := 180 }, codes := [], testAuth := none }

/-- Reduced service starts under a valid holding block: an epoch is claimed, and t(0) is the next whole multiple of
250,000 ns. Log 57 (DESIGN CHOICE). -/
def State.startReduced (s : State) (h : HoldBlock) : State :=
  let c := h.charter
  let s1 := (s.claimEpoch.takeWarrant.setRole .single).mapPar fun p => { p with lease := 8 }
  let s2 := s1.enterCharter c
  let s3 := forEach h.axes (fun (x : HoldAxis) (s : State) => s.setPageWords x.axisRec.axis (0x180 + 4 * 22) x.cmd) s2
  { s3 with
    cyc := { s3.cyc with
      service := 1, num := 0, k := 0, tk := (s.tim.now / 250000 + 1) * 250000, sampled := false, frozen := false }
    teller := { s3.teller with laneEn := 0x000F }
    ports := s3.ports.map fun q => { q with launched := false, discDone := false, pendingDisc := none }
    bst := { s3.bst with
      holdC := some c, rsvRunning := true, rsvReason := 0, rsvCycle := 0, evt := setBit s3.bst.evt 3 } }

/-- Why reduced service does not start at the end of the listen; 0 where it does. Log 58 (DEDUCED). -/
def State.rsvReason (s : State) : Nat :=
  if s.par.unit then 1
  else if !holdValid s.bst.hold then 3
  else if s.bst.heard then 4
  else 0

/-- LISTEN_END: the 10 ms after wave 1 are over; reduced service starts where nothing stands against it. Log 58 (DEDUCED). -/
def execListenEnd (s : State) : Host.Outcome State Fault Refusal :=
  if !s.bst.listening then .next s
  else
    let s1 := s.mapBst fun b => { b with listening := false }
    match s.rsvReason, s.bst.hold with
    | 0, some h => if s.cyc.service = 0 ∧ s.cht.active = none then .next (s1.startReduced h) else .next s1
    | r, _ => .next (s1.mapBst fun b => { b with rsvReason := r })

/-! ## Strongroom requests (R412, R413) -/

/-- Words of a request record. -/
def reqWords : Nat := 45

/-- SUBMIT: the record at SRM_REQ is taken for its check; while one is being checked, BUSY is answered. -/
def State.srmSubmit (s : State) : State :=
  if s.srm.busy then s.mapSrm fun r => { r with result := 8, evt := setBit r.evt 1 }
  else
    let a := s.srm.reqAddr.toNat
    let ws := if s.dramOk a (4 * reqWords) then (List.range reqWords).map fun i => s.dramWord (a + 4 * i)
      else List.replicate reqWords 0
    s.mapSrm fun r => { r with busy := true, pendingReq := ws }

/-- SUBMIT. -/
def execSubmit (_src : Source) (s : State) : Host.Outcome State Fault Refusal := .next s.srmSubmit

/-- Every key slot is blank. -/
def Srm.blank (r : Srm) : Bool := r.slots.all fun k => k.st == 0

/-- The signer of a request names a key, and the key given is that one. Log 56 (DEDUCED). -/
def Srm.signerOk (r : Srm) (q : List Word) : Bool :=
  let w := q.getD 12 0
  let hash := sha256 (bytesOf ((q.drop 13).take 16))
  if bit w 31 then hash == r.vendorHash
  else match r.slots[field w 1 0]? with
    | some k => k.st == 1 && k.hash == hash
    | none => false

/-- The signature over words 0 to 12 is valid. -/
def reqSigned (q : List Word) : Bool :=
  let part := fun (i : Nat) => bytesNat (bytesOf ((q.drop i).take 8))
  ecdsaValid (part 13) (part 21) (part 29) (part 37) (sha256 (bytesOf (q.take 13)))

/-- The result of a request: 0 accepted; otherwise the first condition of R413 that fails, in the order of SRM_RESULT.
Log 56 (DEDUCED). -/
def Srm.judge (r : Srm) (q : List Word) : Nat :=
  let kind := field (q.getD 0 0) 7 0
  let slot := r.slots.getD (field (q.getD 0 0) 9 8) { st := 0, hash := [] }
  let first := kind == 1 && r.blank
  let vendor := bit (q.getD 12 0) 31
  let others := (indexed r.slots).any fun (e : Nat × OtpSlot) => e.1 != field (q.getD 0 0) 9 8 && e.2.st == 1
  if kind = 0 ∨ 4 < kind then 1
  else if q.getD 3 0 ++ q.getD 2 0 ≠ r.devId then 2
  else if first && !((q.drop 12).all fun w => w == 0) then 3
  else if (3 ≤ kind && !vendor) || (!first && !r.signerOk q) then 3
  else if !first && !reqSigned q then 4
  else if kind = 1 ∧ slot.st ≠ 0 then 5
  else if kind = 2 ∧ others = false then 6
  else if kind = 4 ∧ r.lockout = true then 7
  else 0

/-- An accepted request takes effect. -/
def Srm.grant (r : Srm) (q : List Word) : Srm :=
  let n := field (q.getD 0 0) 9 8
  match field (q.getD 0 0) 7 0 with
  | 1 => { r with slots := putAt r.slots n { st := 1, hash := bytesOf ((q.drop 4).take 8) } }
  | 2 => { r with slots := setAt r.slots n fun k => { k with st := 2 } }
  | 3 => { r with authValid := true, authId := q.getD 1 0, auths := q.getD 1 0 :: r.auths }
  | _ => { r with jtagOpen := true }

/-- STRONGROOM_ANSWER: the check of a request ends. -/
def execStrongroomAnswer (s : State) : Host.Outcome State Fault Refusal :=
  if !s.srm.busy then .next s
  else
    let q := s.srm.pendingReq
    let code := s.srm.judge q
    .next (s.mapSrm fun r =>
      let r1 := { r with busy := false, pendingReq := [], result := code, evt := setBit r.evt (if code = 0 then 0 else 1) }
      if code = 0 then r1.grant q else r1)

end Sys2Proof.Machine
end

