-- ==== Sys2Proof/Machine/RegRead.lean ====
section
/-!
DEFINITION. What every register reads as (20_register_map R452, with the register tables of the other chapters): one function a
block, from the byte offset in the block; none where the block has no register there.
-/
namespace Sys2Proof.Machine
open Sys2Proof

/-- The index of a register of a family of n from an offset, every `stride` bytes from a base. -/
def famIx (off base stride n : Nat) : Option Nat :=
  if base ≤ off ∧ (off - base) % stride = 0 ∧ (off - base) / stride < n then some ((off - base) / stride) else none

/-- The index in a family of register groups, with the offset in the group. -/
def famAt (off base stride n : Nat) : Option (Nat × Nat) :=
  if base ≤ off ∧ (off - base) / stride < n then some ((off - base) / stride, (off - base) % stride) else none

/-- A number as a register value. -/
def word (n : Nat) : Word := BitVec.ofNat 32 n

/-- Low word of a number. -/
def wLo (n : Nat) : Word := BitVec.ofNat 32 n

/-- High word of a number. -/
def wHi (n : Nat) : Word := BitVec.ofNat 32 (n / 2 ^ 32)

/-- GLB_. The die revision is 0. Log 86 (DESIGN CHOICE). -/
def State.readGlb (s : State) (off : Nat) : Option Word :=
  let g := s.glb
  match off with
  | 0x000 => some 0x00002560
  | 0x004 => some g.accessErr
  | 0x008 => some (wLo g.accessAddr.toNat)
  | 0x00C => some (wHi g.accessAddr.toNat)
  | 0x010 => some g.accessSrc
  | 0x014 => some g.temp
  | 0x018 => some g.scratch
  | _ => none

/-- CLK_. -/
def State.readClk (s : State) (off : Nat) : Option Word :=
  let c := s.clk
  match off with
  | 0x000 => some (word (flagAt c.lock 0 + flagAt c.holdover 1 + flagAt c.refLost 2 + flagAt c.derated 3
      + c.refOffs.toNat * 65536))
  | 0x004 => some c.derate
  | 0x008 => some c.evt
  | _ => none

/-- A register of the always-on domain: 0 while VBAK is below 2.0 V (R434). -/
def State.aoWord (s : State) (n : Nat) : Word := if s.tim.vbak then word n else 0

/-- TIM_. -/
def State.readTim (s : State) (off : Nat) : Option Word :=
  let t := s.tim
  match off with
  | 0x000 => some (wLo t.now)
  | 0x004 => some (wHi t.now)
  | 0x008 => some t.slew
  | 0x010 => some (t.plant.extractLsb' 32 32)
  | 0x014 => some (t.plant.extractLsb' 64 32)
  | 0x018 => some t.plantRate
  | 0x01C => some 0
  | 0x020 => some t.plantStat
  | 0x028 => some (s.aoWord t.calSec.toNat)
  | 0x02C => some (s.aoWord (t.calSec.toNat / 2 ^ 32))
  | 0x030 => some (s.aoWord t.calSub.toNat)
  | 0x034 => some (s.aoWord t.calTrim.toNat)
  | 0x038 => some 0
  | 0x03C => some 0
  | 0x040 => some 0
  | 0x044 => some (wLo t.capDev.toNat)
  | 0x048 => some (wHi t.capDev.toNat)
  | 0x04C => some (wLo t.capPlant.toNat)
  | 0x050 => some (wHi t.capPlant.toNat)
  | 0x054 => some (wLo t.capSec.toNat)
  | 0x058 => some (word (t.capSec.toNat / 2 ^ 32 + t.capSub.toNat * 65536 + flagAt t.capDone 31))
  | 0x05C => some (s.aoWord t.pfail.toNat)
  | 0x060 => some (s.aoWord (t.pfail.toNat / 2 ^ 32))
  | _ => none

/-- Code of CHT_STAT.STAGE_STATE. -/
def stageCode : StageState → Nat
  | .empty => 0
  | .loading => 1
  | .checking => 2
  | .staged => 3
  | .rejected => 4
  | .armed => 5

/-- CHT_. CHT_STAGED_ID holds in STAGED and ARMED. -/
def State.readCht (s : State) (off : Nat) : Option Word :=
  let t := s.cht
  let idOf := fun (c : Option Charter) => match c with
    | some c => c.charterId.toNat
    | none => 0
  let test := match t.active with
    | some c => c.test
    | none => false
  match off with
  | 0x000 => some 0
  | 0x004 => some (word (flagAt t.activeBank 0 + flagAt t.active.isSome 1 + flagAt test 2 + stageCode t.stage * 16
      + flagAt t.activeSafe 8 + flagAt t.stagedSafe 9 + t.stagedLoad % 65536 * 65536))
  | 0x008 => some (wLo t.src.toNat)
  | 0x00C => some (wHi t.src.toNat)
  | 0x010 => some t.srcLen
  | 0x018 => some (wLo t.swapAt.toNat)
  | 0x01C => some (wHi t.swapAt.toNat)
  | 0x020 => some (word (t.errCode % 256 + t.errDetail % 65536 * 65536))
  | 0x024 => some t.errOffs
  | 0x028 => some t.evt
  | 0x030 => some (wLo (idOf t.active))
  | 0x034 => some (wHi (idOf t.active))
  | 0x038 => some (wLo (idOf t.staged))
  | 0x03C => some (wHi (idOf t.staged))
  | 0x060 => some (word (t.activeKey % 4 + t.stagedKey % 4 * 256))
  | _ => (famIx off 0x040 4 8).map fun i => s.handoverBits.extractLsb' (32 * i) 32

/-- CYC_. Log 87 (DEDUCED). -/
def State.readCyc (s : State) (off : Nat) : Option Word :=
  let y := s.cyc
  let base := match s.cht.active with
    | some c => c.baseRate % 4 * 4 + c.ratesUsed % 16 * 16
    | none => 0
  let portOf := fun (p : Nat) => s.charter.bind fun c => c.port? p
  match off with
  | 0x000 => some (word (y.service % 4 + base))
  | 0x008 => some (wLo y.num)
  | 0x00C => some (wHi y.num)
  | 0x010 => some (wLo y.tk)
  | 0x014 => some (wHi y.tk)
  | 0x018 => some (word s.period)
  | 0x01C => some (word s.cpOffs)
  | 0x020 => some (word s.dlOffs)
  | 0x028 => some y.evt
  | 0x02C => some y.ovrTotal
  | 0x030 => some y.latePorts
  | 0x034 => some y.leadShort
  | 0x038 => some y.slackMin
  | 0x03C => some y.axSel
  | 0x040 =>
    let x := s.axis (field y.axSel 7 0)
    some (word (x.ovrCount % 65536 + x.ovrConsec % 256 * 65536 + x.ovrCause % 4 * 2 ^ 24))
  | _ =>
    match famIx off 0x060 4 8, famIx off 0x080 4 8, famIx off 0x100 4 32, famIx off 0x180 4 32 with
    | some i, _, _, _ => some (y.ovrAxis.extractLsb' (32 * i) 32)
    | _, some i, _, _ => some (y.rxnAxis.extractLsb' (32 * i) 32)
    | _, _, some p, _ => some (match portOf p with | some r => word r.returnDue | none => 0)
    | _, _, _, some p => some (match portOf p with | some r => word r.issueLead | none => 0)
    | _, _, _, _ => none

/-- Code of LNE_STAT.STATE. -/
def laneCode : LaneState → Nat
  | .waiting => 0
  | .running => 1
  | .committing => 2
  | .holding => 3

/-- A word of the window of a lane: data RAM, code RAM and the LNE_ registers. -/
def State.readLne (s : State) (n off : Nat) : Option Word :=
  let l := s.lane n
  if off < 0x20000 then some (l.load (s.blockTable n) off)
  else if off < 0x40000 then
    let w := memRead s.code ((off - 0x20000) / 8)
    some (if off % 8 = 0 then w.extractLsb' 0 32 else w.extractLsb' 32 32)
  else match off with
    | 0xF0000 =>
      let flow := match l.job with
        | some j => j.flow % 4096 * 65536 + 2 ^ 31
        | none => 0
      some (word (laneCode l.state + l.rep.length % 8 * 16 + l.ret.length % 16 * 256 + flow))
    | 0xF0004 => some l.fault
    | 0xF0008 => some (word (l.faultPc % 2 ^ 15))
    | 0xF000C => some (word (l.faultTask % 2 ^ 11))
    | 0xF0010 => some l.arith
    | 0xF0018 => some (wLo l.jobs)
    | 0xF001C => some (wHi l.jobs)
    | 0xF0020 => some (wLo l.busy)
    | 0xF0024 => some (wHi l.busy)
    | _ => none

/-- Word i of the task table for a task. -/
def Teller.tableWord (t : Teller) (n i : Nat) : Word :=
  match t.task? n with
  | none => 0
  | some k => match i with
    | 0 => word (k.prio % 16 + taskCode k.st * 16 + flagAt k.all 7 + k.flow % 4096 * 256 + k.rate % 4 * 2 ^ 20
        + k.phase % 8 * 2 ^ 22 + flagAt k.axisTask 31)
    | 1 => k.mask
    | 2 => k.flags
    | _ => k.runs

/-- TLR_ and the task table. -/
def State.readTlr (s : State) (off : Nat) : Option Word :=
  let t := s.teller
  let wait := (List.range 16).foldl (fun n i => n + flagAt (s.bst.released && (s.lane i).state == .waiting) i) 0
  match off with
  | 0x000 => some (word (wait + t.laneEn.toNat * 65536))
  | 0x004 => some t.evt
  | 0x008 => some t.err
  | 0x00C => some 0
  | 0x010 => some t.taskSel
  | 0x014 => some 0
  | 0x018 => some t.taskArg
  | 0x020 => some t.merged
  | 0x024 => some t.removed
  | 0x028 => some t.stopped
  | 0x02C => some t.latMax
  | 0x040 => some t.dlyTask
  | 0x044 => some (wLo t.dlyDue.toNat)
  | 0x048 => some (wHi t.dlyDue.toNat)
  | 0x04C => some t.dlyPeriod
  | 0x050 => some 0
  | 0x0F0 => some 0
  | _ =>
    if 0x8000 ≤ off ∧ off < 0x10000 then some (t.tableWord ((off - 0x8000) / 16) (off % 16 / 4))
    else match famIx off 0x060 4 8, famIx off 0x100 4 5, famIx off 0x120 4 5, famIx off 0x200 4 64 with
      | some i, _, _, _ => some (word (t.lists.getD i []).length)
      | _, some i, _, _ => some (t.ipend.getD i 0)
      | _, _, some i, _ => some (t.ien.getD i 0)
      | _, _, _, some i => some (t.cbind.getD i 0)
      | _, _, _, _ => none

/-- LGR_. -/
def State.readLgr (s : State) (off : Nat) : Option Word :=
  let l := s.ledger
  match off with
  | 0x000 => some (word (flagAt l.ready 0 + flagAt l.clearing 1 + flagAt l.pinLoading 2))
  | 0x008 => some (wLo l.base.toNat)
  | 0x00C => some (wHi l.base.toNat)
  | 0x010 => some (word (l.pinCount % 2 ^ 21))
  | 0x018 => some (wLo l.hits.toNat)
  | 0x01C => some (wHi l.hits.toNat)
  | 0x020 => some (wLo l.misses.toNat)
  | 0x024 => some (wHi l.misses.toNat)
  | 0x028 => some l.evt
  | 0x02C => some l.errId
  | 0x030 => some l.eccCorr
  | _ => none

/-- ARB_. -/
def State.readArb (s : State) (off : Nat) : Option Word :=
  let a := s.arb
  match off with
  | 0x000 =>
    let own := match a.owner with
      | some o => o.r.req % 32 + 32 + flagAt o.r.restart 7
      | none => a.lastOwner % 32
    some (word (own + flagAt a.parked 6 + (s.fclk - a.winStart) % 2 ^ 17 * 2 ^ 15))
  | 0x004 => some (word (a.winLen % 2 ^ 17 + a.urgentBeats % 2 ^ 13 * 2 ^ 17))
  | 0x008 => some a.evt
  | 0x00C => some a.preempts
  | 0x010 => some (word ((List.range 24).foldl (fun n i => n + flagAt (a.reqState i).masked i) 0))
  | 0x014 => some 0
  | _ =>
    match famIx off 0x100 4 24, famIx off 0x200 4 24, famAt off 0x400 0x10 24 with
    | some i, _, _ =>
      let q := a.reqState i
      some (word (q.cls % 4 + q.allowance % 65536 * 65536))
    | _, some i, _ =>
      let q := a.reqState i
      let urgent := if i < 16 then (s.lane i).urgentUsed % 2 ^ 13 else 0
      some (word ((q.allowance - q.count) % 65536 + urgent * 65536))
    | _, _, some (i, r) =>
      let q := a.reqState i
      match r with
      | 0 => some q.grants
      | 4 => some (wLo q.wait.toNat)
      | 8 => some (wHi q.wait.toNat)
      | 12 => some (word (q.waitMax % 2 ^ 24))
      | _ => none
    | _, _, _ => none

/-- A value of a position that counts from the primary's port (R307); 0 beyond the end of the line. Log 73 (DEDUCED). -/
def State.ofPos (s : State) (p n : Nat) (f : Nat → Nat) : Nat := if s.primaryPos p n = 0 then 0 else f (s.primaryPos p n)

/-- TBP_ of port p. -/
def State.readTbp (s : State) (p off : Nat) : Option Word :=
  let q := s.port p
  let inCharter := match s.cht.active with
    | some c => (c.port? p).isSome
    | none => false
  match off with
  | 0x000 => some (word (flagAt q.linkUp 0 + flagAt q.rate 1 + flagAt q.medium 2 + flagAt q.sfpPresent 3 + flagAt q.sfpLos 4
      + flagAt inCharter 5 + q.stations % 32 * 256))
  | 0x004 => some q.ctrl
  | 0x008 => some q.evt
  | 0x00C => some q.eq
  | 0x010 => some q.eye
  | 0x014 => some q.symErr
  | 0x018 => some q.crcErr
  | 0x01C => some q.lenErr
  | 0x020 => some q.missing
  | 0x028 => some (wLo (q.launchUi / 5))
  | 0x02C => some (wHi (q.launchUi / 5))
  | 0x030 => some (wLo (q.rarrUi / 5))
  | 0x034 => some (wHi (q.rarrUi / 5))
  | 0x038 => some (word (q.launchUi % 5 + q.rarrUi % 5 * 256))
  | 0x040 => some (word (q.lenIssue % 65536 + q.lenReturn % 65536 * 65536))
  | 0x044 => some q.acyTx
  | 0x048 => some q.acyRx
  | _ =>
    match famIx off 0x100 4 16, famIx off 0x140 4 16, famIx off 0x180 4 16, famIx off 0x1C0 4 16 with
    | some i, _, _, _ => some (word (q.hop.getD i 0 % 2 ^ 24))
    | _, some i, _, _ => some (word (s.ofPos p (i + 1) (fun n => q.cut.getD (n - 1) 0) % 65536))
    | _, _, some i, _ =>
      some (word (s.ofPos p (i + 1) (fun n => match (q.at n).station with
        | some st => (s.station st).credit
        | none => 0) % 65536))
    | _, _, _, some i => some (word (s.ofPos p (i + 1) (fun n => q.grant.getD (n - 1) 0) % 256))
    | _, _, _, _ => none

/-- DSC_. -/
def State.readDsc (s : State) (off : Nat) : Option Word :=
  let d := s.dsc
  let (p, n) := s.dscSel
  let q := if n = 0 then Position.reset else (s.port p).at n
  match off with
  | 0x000 => some d.ctrl
  | 0x004 => some 0
  | 0x008 => some d.sel
  | 0x00C => some d.evt
  | 0x010 => some (word (d.ringHead % 256))
  | 0x014 => some d.ringSeq
  | 0x018 => some (word (posCode q.st + q.reason % 16 * 16 + flagAt (!q.degr.isEmpty) 8 + q.station.getD 0x3FF % 1024 * 65536))
  | 0x01C => some q.vendor
  | 0x020 => some q.model
  | 0x024 => some (wLo q.serial.toNat)
  | 0x028 => some (wHi q.serial.toNat)
  | 0x02C => some q.caps
  | _ =>
    match famIx off 0x044 4 10, famIx off 0x100 4 32 with
    | some i, _ => some (d.tol.getD i 0)
    | _, some i =>
      let r := s.port i
      some (word (r.found % 32 + s.primaryPos i r.isolatePos % 32 * 256 + flagAt r.noRoom 16 + flagAt r.enrolling 17))
    | _, _ => none

/-- FBK_. While the Charter is staging, the RWS registers read as the staged copy (R258). -/
def State.readFbk (s : State) (off : Nat) : Option Word :=
  let io := s.io
  let a := s.axis (field io.axSel 7 0)
  let load := bit io.axSel 8
  let st := s.cht.stage == .staged
  match off with
  | 0x010 => some io.axSel
  | 0x014 => some (if st then (if load then a.cfgSt1 else a.cfgSt0) else if load then a.cfg1 else a.cfg0)
  | 0x018 => some (if st then (if load then a.ssiSt1 else a.ssiSt0) else if load then a.ssi1 else a.ssi0)
  | 0x01C => some (if load then a.stat1 else a.stat0)
  | _ =>
    match famAt off 0x100 0x20 16, famAt off 0x400 0x20 16, famIx off 0x600 4 8 with
    | some (n, r), _, _ =>
      let p := io.fb.getD n FbPort.reset
      match r with
      | 0x00 => some (if st then p.cfgSt else p.cfg)
      | 0x04 => some p.count
      | 0x08 => some p.stat
      | 0x0C => some p.zLatch
      | 0x10 => some (wLo p.tLast)
      | 0x14 => some (wHi p.tLast)
      | 0x18 => some p.glitch
      | _ => none
    | _, some (n, r), _ =>
      let g := s.trg n
      match r with
      | 0x00 => some g.cfg
      | 0x04 => some (word (flagAt g.fired 0 + flagAt g.active 1 + flagAt g.armed 2 + flagAt g.latchInvalid 3))
      | 0x08 => some (wLo g.time)
      | 0x0C => some (wHi g.time)
      | 0x10 => some g.latch
      | _ => none
    | _, _, some n => some (io.fbo.getD n Fbo.reset).cfg
    | _, _, _ => none

/-- CMP_LSTATn and CMP_SSTATm. -/
def Cmp.stat (c : Cmp) : Word :=
  word (flagAt c.behind 0 + flagAt c.fired 1 + flagAt c.late 2 + flagAt c.miss 3 + flagAt c.level 4)

/-- CMP_. -/
def State.readCmp (s : State) (off : Nat) : Option Word :=
  let io := s.io
  match off with
  | 0x000 => some io.lFired
  | 0x004 => some io.sFired
  | 0x008 => some io.lBehind
  | 0x00C => some io.sBehind
  | _ =>
    match famAt off 0x100 0x20 8, famAt off 0x400 0x20 32 with
    | some (n, r), _ =>
      let c := s.lcmp n
      match r with
      | 0x00 => some c.cfg
      | 0x04 => some c.v32
      | 0x08 => some c.step
      | 0x0C => some c.stat
      | 0x10 => some (wLo c.time)
      | 0x14 => some (wHi c.time)
      | _ => none
    | _, some (m, r) =>
      let c := s.scmp m
      match r with
      | 0x00 => some c.cfg
      | 0x04 => some (wLo c.val.toNat)
      | 0x08 => some (wHi c.val.toNat)
      | 0x0C => some c.step
      | 0x10 => some c.stat
      | 0x14 => some (wLo c.time)
      | 0x18 => some (wHi c.time)
      | _ => none
    | _, _ => none

/-- Code of ACQ_STAT.STATE. -/
def acqCode : AcqState → Nat
  | .idle => 0
  | .filling => 1
  | .armed => 2
  | .post => 3
  | .done => 4
  | .cal => 5

/-- ACQ_. -/
def State.readAcq (s : State) (off : Nat) : Option Word :=
  let a := s.acq
  match off with
  | 0x000 => some 0
  | 0x004 => some (word (acqCode a.state + flagAt a.trigValid 3 + flagAt a.wrapped 4 + a.reason % 4 * 256))
  | 0x008 => some a.evt
  | 0x010 => some (wLo a.base.toNat)
  | 0x014 => some (wHi a.base.toNat)
  | 0x018 => some a.size
  | 0x01C => some a.prefill
  | 0x020 => some a.post
  | 0x024 => some a.ivl
  | 0x028 => some (word (a.cLog % 32 + a.fLog % 32 * 256))
  | 0x02C => some a.bw
  | 0x030 => some a.trig
  | 0x034 => some a.thr
  | 0x038 => some a.hyst
  | 0x03C => some a.calRef
  | 0x040 => some (word (a.wptr % 2 ^ 20))
  | 0x044 => some (word (a.tblock % 2 ^ 20))
  | 0x048 => some a.bseq
  | 0x04C => some a.dropped
  | 0x050 => some (wLo a.ttime.toNat)
  | 0x054 => some (wHi a.ttime.toNat)
  | 0x058 => some (word (a.tfrac % 256 + a.tf % 256 * 256))
  | 0x05C => some (wLo a.tsamp.toNat)
  | 0x060 => some (wHi a.tsamp.toNat)
  | 0x600 => some (wLo a.upBase.toNat)
  | 0x604 => some (wHi a.upBase.toNat)
  | 0x608 => some a.upSize
  | 0x60C => some a.upHead
  | 0x610 => some a.upTail
  | 0x614 => some a.upDrop
  | _ =>
    match famIx off 0x080 4 8, famIx off 0x100 4 64, famIx off 0x200 4 72, famIx off 0x400 4 72 with
    | some i, _, _, _ => some (a.fch.getD i 0)
    | _, some i, _, _ => some (a.ch.getD i 0)
    | _, _, some i, _ => some (a.skOff.getD i 0)
    | _, _, _, some i => some (a.skRes.getD i 0)
    | _, _, _, _ => none

/-- Code of PAR_STAT.ROLE. -/
def roleCode : Role → Nat
  | .single => 0
  | .seeking => 1
  | .active => 2
  | .standby => 3
  | .isolated => 4

/-- PAR_SETTLE_LEFT: milliseconds of SETTLE still to run; all of it while ESCROW_SYNC is 0. Log 87 (DEDUCED). -/
def State.settleLeft (s : State) : Nat :=
  match s.cht.active.bind fun c => c.pairRec with
  | none => 0
  | some r =>
    if s.par.sync then (s.par.syncSince + r.settleMs * 1000000 - s.tim.now + 999999) / 1000000 else r.settleMs

/-- PAR_. -/
def State.readPar (s : State) (off : Nat) : Option Word :=
  let p := s.par
  match off with
  | 0x000 => some (word (roleCode p.role + flagAt p.unit 3 + flagAt (p.link && p.mir.getD 0 false) 4
      + flagAt (p.link && p.mir.getD 1 false) 5 + flagAt p.sync 6 + flagAt (p.takeStep != .none) 7 + flagAt p.inhibit 8
      + flagAt p.timeLocked 9))
  | 0x004 => some 0
  | 0x008 => some p.evt
  | 0x00C => some p.cfg
  | 0x010 => some (word p.epoch)
  | 0x014 => some (word p.highest)
  | 0x018 => some (wLo p.renew)
  | 0x01C => some (wHi p.renew)
  | 0x020 => some (wLo p.escrow)
  | 0x024 => some (wHi p.escrow)
  | 0x028 => some (wLo (lowBits 64 p.toffs))
  | 0x02C => some (wHi (lowBits 64 p.toffs))
  | 0x030 => some (word (lowBits 16 p.terr))
  | 0x034 => some (word p.mirDly)
  | 0x038 => some (word s.settleLeft)
  | 0x03C => some p.mirErr
  | 0x040 => some (word (p.lease % 128))
  | _ => none

/-- Stations bound in reduced service. -/
def State.rsvBound (s : State) : Nat :=
  if s.reduced then (s.everyPos.filter fun e => e.2.2.st == .bound).length else 0

/-- BST_. -/
def State.readBst (s : State) (off : Nat) : Option Word :=
  let b := s.bst
  match off with
  | 0x000 => some (word (b.wave % 8 + flagAt b.running 3 + verdictCode b.verdict * 16 + flagAt b.released 6 + b.cause % 8 * 256))
  | 0x004 => some b.evt
  | 0x030 => some b.failSeg
  | 0x034 => some b.ana
  | 0x038 => some b.serFail
  | 0x03C => some (word (b.tSpread % 256))
  | 0x040 => some (word (flagAt b.rsvRunning 0 + flagAt (b.holdSeen && holdValid b.hold) 1 + b.rsvReason % 16 * 16 + s.rsvBound % 512 * 256))
  | 0x048 => some (wLo b.rsvCycle.toNat)
  | 0x04C => some (wHi b.rsvCycle.toNat)
  | _ => (famIx off 0x010 4 6).map fun i =>
      let w := b.waves.getD i (.none, 0)
      word (verdictCode w.1 + w.2 % 65536 * 65536)

/-- SRM_. -/
def State.readSrm (s : State) (off : Nat) : Option Word :=
  let r := s.srm
  match off with
  | 0x000 => some (word (flagAt r.zeroised 0 + flagAt r.keysReady 1 + flagAt r.lockout 2 + flagAt r.jtagOpen 3
      + flagAt r.authValid 4 + flagAt r.busy 5))
  | 0x004 => some 0
  | 0x008 => some r.evt
  | 0x00C => some (word (r.result % 16))
  | 0x010 => some (wLo r.reqAddr.toNat)
  | 0x014 => some (wHi r.reqAddr.toNat)
  | 0x018 => some (word ((indexed (r.slots.take 4)).foldl (fun n (e : Nat × OtpSlot) => n + e.2.st % 4 * 4 ^ e.1) 0))
  | 0x01C => some r.authId
  | 0x020 => some (wLo r.devId.toNat)
  | 0x024 => some (wHi r.devId.toNat)
  | _ => none

/-- AGE_. -/
def State.readAge (s : State) (off : Nat) : Option Word :=
  let a := s.age
  match off with
  | 0x000 => some (word (flagAt a.derateDue 0 + flagAt a.warn 1 + flagAt a.exhausted 2 + flagAt a.pmbStopped 3))
  | 0x004 => some 0
  | 0x008 => some a.evt
  | 0x00C => some (if s.bst.released then word (lowBits 16 a.margin + s.ageing.reservePs % 65536 * 65536) else 0)
  | 0x010 => some (if s.bst.released then word (a.vcore % 1024 + s.ageing.vcoreMax % 1024 * 65536) else 0)
  | 0x014 => some (word (a.derateDays % 4096))
  | 0x018 => some (word (a.sens % 65536))
  | 0x01C => some a.linkLow
  | 0x020 => some a.mirLow
  | 0x024 => some (a.mirEye.getD 0 0)
  | 0x028 => some (a.mirEye.getD 1 0)
  | _ =>
    match famIx off 0x100 4 21, famIx off 0x200 4 48 with
    | some i, _ => some (word (lowBits 16 (a.rpl.getD i 0)))
    | _, some j => some (word (a.ro.getD j 0 % 65536))
    | _, _ => none

/-- DBK_. What the journal holds shows from its mount on; until then the reset values stand (R13). Log 93 (DEDUCED). -/
def State.readDbk (s : State) (off : Nat) : Option Word :=
  let d := s.dbk
  match off with
  | 0x000 => some (word (flagAt d.ready 0 + flagAt d.busy 1))
  | 0x004 => some 0
  | 0x008 => some d.evt
  | 0x00C => some d.arg
  | 0x010 => some (wLo d.dst.toNat)
  | 0x014 => some (wHi d.dst.toNat)
  | 0x018 => some d.dstLen
  | 0x01C => some d.expLen
  | 0x020 => some (if d.ready then d.region else 0)
  | 0x024 => some (if d.ready then d.erases else 0)
  | 0x028 => some (s.aoWord d.epochAo)
  | 0x030 => some (if d.ready then wLo d.poh.toNat else 0)
  | 0x034 => some (if d.ready then wHi d.poh.toNat else 0)
  | _ => none

/-- PMB_. -/
def State.readPmb (s : State) (off : Nat) : Option Word :=
  let p := s.pmb
  match off with
  | 0x000 => some p.cfg
  | 0x004 => some p.vset
  | 0x008 => some p.vread
  | 0x00C => some p.status
  | 0x010 => some p.evt
  | _ => none

/-- PTB_. -/
def State.readPtb (s : State) (off : Nat) : Option Word :=
  let p := s.ptb
  match off with
  | 0x000 => some (word (flagAt (s.unlocks s.cht.active) 0 + flagAt p.active 1))
  | 0x004 => some p.evt
  | 0x008 => some 0
  | 0x010 => some p.stretch
  | 0x014 => some p.drop
  | 0x018 => some p.bp
  | 0x01C => some p.jitter
  | 0x020 => some p.lease
  | 0x024 => some p.skew
  | _ => (famIx off 0x100 4 32).map fun i => p.pdly.getD i 0

/-! ## The address map (R450, R452) -/

/-- The register blocks; TBP_ and LNE_ with their port and lane. -/
inductive Block where
  | glb | clk | tim | cht | cyc | tlr | lgr | arb | dsc | fbk | cmp | acq | par | bst | srm | age | dbk | pmb | ptb
  | tbp (p : Nat)
  | lne (n : Nat)
  deriving DecidableEq, Repr

/-- The block an address of the register region lies in, and the offset there; none where it lies in no block. -/
def regBlock (addr : Nat) : Option (Block × Nat) :=
  let off := addr % 0x10000
  match addr / 0x10000 with
  | 0x4000 => some (.glb, off)
  | 0x4001 => some (.clk, off)
  | 0x4002 => some (.tim, off)
  | 0x4003 => some (.cht, off)
  | 0x4004 => some (.cyc, off)
  | 0x4005 => some (.tlr, off)
  | 0x4006 => some (.lgr, off)
  | 0x4007 => some (.arb, off)
  | 0x4010 => some (.tbp (off / 0x1000), off % 0x1000)
  | 0x4011 => some (.tbp (16 + off / 0x1000), off % 0x1000)
  | 0x4012 => some (.dsc, off)
  | 0x4014 => some (.fbk, off)
  | 0x4015 => some (.cmp, off)
  | 0x4016 => some (.acq, off)
  | 0x4018 => some (.par, off)
  | 0x401A => some (.bst, off)
  | 0x401B => some (.srm, off)
  | 0x401C => some (.age, off)
  | 0x401D => some (.dbk, off)
  | 0x401E => some (.pmb, off)
  | 0x401F => some (.ptb, off)
  | _ => if 0x41000000 ≤ addr ∧ addr < 0x42000000 then some (.lne ((addr - 0x41000000) / 0x100000), addr % 0x100000) else none

/-- The value of a register, by block and offset. -/
def State.readBlock (s : State) (b : Block) (off : Nat) : Option Word :=
  match b with
  | .glb => s.readGlb off
  | .clk => s.readClk off
  | .tim => s.readTim off
  | .cht => s.readCht off
  | .cyc => s.readCyc off
  | .tlr => s.readTlr off
  | .lgr => s.readLgr off
  | .arb => s.readArb off
  | .dsc => s.readDsc off
  | .fbk => s.readFbk off
  | .cmp => s.readCmp off
  | .acq => s.readAcq off
  | .par => s.readPar off
  | .bst => s.readBst off
  | .srm => s.readSrm off
  | .age => s.readAge off
  | .dbk => s.readDbk off
  | .pmb => s.readPmb off
  | .ptb => s.readPtb off
  | .tbp p => s.readTbp p off
  | .lne n => s.readLne n off

/-- A register at an offset is a _LO register; its _HI follows it (R11). -/
def isLo (b : Block) (off : Nat) : Bool :=
  match b with
  | .glb => off == 0x008
  | .tim => [0x000, 0x010, 0x028, 0x038, 0x044, 0x04C, 0x054, 0x05C].contains off
  | .cht => [0x008, 0x018, 0x030, 0x038].contains off
  | .cyc => [0x008, 0x010].contains off
  | .tlr => off == 0x044
  | .lgr => [0x008, 0x018, 0x020].contains off
  | .arb => (famAt off 0x400 0x10 24).any fun e => e.2 == 4
  | .tbp _ => [0x028, 0x030].contains off
  | .dsc => off == 0x024
  | .fbk => (famAt off 0x100 0x20 16).any (fun e => e.2 == 0x10) || (famAt off 0x400 0x20 16).any fun e => e.2 == 0x08
  | .cmp => (famAt off 0x100 0x20 8).any (fun e => e.2 == 0x10)
      || (famAt off 0x400 0x20 32).any fun e => e.2 == 0x04 || e.2 == 0x14
  | .acq => [0x010, 0x050, 0x05C, 0x600].contains off
  | .par => [0x018, 0x020, 0x028].contains off
  | .bst => off == 0x048
  | .srm => [0x010, 0x020].contains off
  | .dbk => [0x010, 0x030].contains off
  | .lne _ => [0xF0018, 0xF0020].contains off
  | _ => false

end Sys2Proof.Machine
end

