-- ==== Sys2Proof/Machine/Transfer.lean ====
section
/-!
DEFINITION. The end of a fabric transfer (11_ledger_and_arbiter, R294, R295): what each kind of transfer does at its last beat.
-/
namespace Sys2Proof.Machine
open Sys2Proof

/-- Entries read by a requester one after the other, each with the error that its stored bits show; none beyond the list. -/
def State.readEntries (s : State) (req : Nat) (ecc : List Ecc) : List Nat → List Word64 × State
  | [] => ([], s)
  | id :: t =>
    let (e, s1) := s.readEntry req id (ecc.headD .clean)
    let (es, s2) := s1.readEntries req (ecc.drop 1) t
    (e :: es, s2)

/-- The oldest posted write of a lane takes effect (R141). -/
def State.postWrite (s : State) (n : Nat) : State :=
  match (s.lane n).post with
  | [] => s
  | p :: rest => (s.writeEntry n p.id (entry p.value p.status p.stamp)).mapLane n fun l => { l with post := rest }

/-- What a transfer of a requester does at its last beat. -/
def State.lastBeat (s : State) (r : Req) (ecc : List Ecc) : State :=
  match r.xfer with
  | .laneRead n => match (s.lane n).stall with
    | some rd =>
      let (es, s1) := s.readEntries r.req ecc rd.ids
      s1.mapLane n fun l => { l with got := some es }
    | none => s
  | .lanePost n => s.postWrite n
  | .windowRead _ width id hi =>
    let (e, s1) := s.readEntry r.req id (ecc.headD .clean)
    { s1 with readData := windowValue width hi e }
  | .windowWrite src width id hi value => s.windowWrite src width id hi value
  | .acqRead chans k =>
    forEach (indexed chans) (fun (c : Nat × Nat) (s : State) =>
      let (e, s1) := s.readEntry r.req (field (s.acq.ch.getD c.2 0) 24 0) (ecc.getD c.1 .clean)
      s1.acqDone c.2 k e) s
  | .acqWrite i => s.acqMoved i

/-- TRANSFER_COMPLETE: the last beat of the transfer under way. -/
def execTransferComplete (ecc : List Ecc) (s : State) : Host.Outcome State Fault Refusal :=
  match s.arb.owner with
  | none => .next s
  | some o =>
    if s.fclk < o.lastBeat then .next s
    else .next ((s.mapArb fun a => a.finish s.fclk o).lastBeat o.r ecc)

end Sys2Proof.Machine
end

