-- ==== Sys2Proof/Machine/Registers.lean ====
section
/-!
DEFINITION. Accesses from the cores and the host (00_scope R9 to R12, 20_register_map R450 to R454): what a write does to every
register, and where an access goes by its address.
-/
namespace Sys2Proof.Machine
open Sys2Proof

/-- The state that a command's meaning leaves. -/
def stateOf (s : State) (o : Host.Outcome State Fault Refusal) : State :=
  match o with
  | .next t => t
  | _ => s

/-- A block that takes a write: the address of its base, the offset, the source and the value. -/
structure RegWr where
  src : Source
  addr : Nat
  v : Word

/-- The value written, restricted to the bits of a register. -/
def RegWr.keep (w : RegWr) (m : Word) : Word := w.v &&& m

/-! ## GLB_, CLK_, TIM_ -/

/-- GLB_. -/
def State.writeGlb (s : State) (off : Nat) (w : RegWr) : Option State :=
  match off with
  | 0x004 => some (s.mapGlb fun g => g.errClear s.pclk w.v)
  | 0x018 => some (s.mapGlb fun g => { g with scratch := w.v })
  | _ => (s.readGlb off).map fun _ => s

/-- CLK_. -/
def State.writeClk (s : State) (off : Nat) (w : RegWr) : Option State :=
  match off with
  | 0x004 => some (s.derateWrite w.v)
  | 0x008 => some (s.mapClk fun c => { c with evt := w1c c.evt w.v 0x1F })
  | _ => (s.readClk off).map fun _ => s

/-- TIM_SLEW as written: PPM saturated to ±100 ppm; EN stays 0 on a unit that is not a standby (R38). -/
def slewOf (v : Word) (standby : Bool) : Word :=
  BitVec.ofNat 32 (lowBits 16 (clamp (-10000) 10000 (signed 16 (field v 15 0))) + flagAt (bit v 16 && standby) 16)

/-- TIM_. Any write to TIM_CAP_CTRL.CAPTURE clears DONE, and one of 1 captures (R47). TIM_SLEW takes a write of the service core
only (R39); registers of the always-on domain take none while VBAK is below 2.0 V (R434). -/
def State.writeTim (s : State) (off : Nat) (w : RegWr) : Option State :=
  match off with
  | 0x008 =>
    if w.src = .svc then some (s.mapTim fun t => { t with slew := slewOf w.v (s.par.role == .standby) })
    else some (s.errUnmapped w.src true .w32 w.addr)
  | 0x018 => some (s.mapTim fun t => { t with plantRate := plantRateSat w.v })
  | 0x01C => some (stateOf s (execPlantStepWrite w.src w.v s))
  | 0x020 => some (s.mapTim fun t => { t with plantStat := w.keep 0xF })
  | 0x034 => some (if s.tim.vbak then s.mapTim fun t => { t with calTrim := w.v.setWidth 16 } else s)
  | 0x038 => some (s.stageLo w.addr w.v)
  | 0x03C => some (s.calendarSet w.v)
  | 0x040 => some (if bit w.v 0 then stateOf s (execCapture w.src s) else s.mapTim fun t => { t with capDone := false })
  | _ => (s.readTim off).map fun _ => s

/-! ## CHT_, CYC_ -/

/-- CHT_CTRL: one command; several at once are ignored (R74). Log 13 (DESIGN CHOICE). -/
def State.chtCtrl (s : State) (v : Nat) : State :=
  match v % 32 with
  | 0 => s
  | 1 => s.chtLoad
  | 2 => s.chtArm
  | 4 => s.chtDisarm
  | 8 => s.chtDiscard
  | 16 => s.chtStart
  | _ => s.chtIgnored

/-- CHT_. CHT_SWAP_AT is locked while ARMED. -/
def State.writeCht (s : State) (off : Nat) (w : RegWr) : Option State :=
  let armed := s.cht.stage == .armed
  match off with
  | 0x000 => some (s.chtCtrl w.v.toNat)
  | 0x008 => some (s.stageLo w.addr w.v)
  | 0x00C => some (s.mapCht fun t => { t with src := s.pairOf (w.addr - 4) w.v })
  | 0x010 => some (s.mapCht fun t => { t with srcLen := w.v })
  | 0x018 => some (if armed then s else s.stageLo w.addr w.v)
  | 0x01C => some (if armed then s else s.mapCht fun t => { t with swapAt := s.pairOf (w.addr - 4) w.v })
  | 0x028 => some (s.mapCht fun t => { t with evt := w1c t.evt w.v 0xFF })
  | _ => (s.readCht off).map fun _ => s

/-- Ones of a word clear the bits of its register in a set of eight. -/
def clear256 (b : BitVec 256) (i : Nat) (v : Word) : BitVec 256 := b &&& ~~~(BitVec.ofNat 256 (v.toNat * 2 ^ (32 * i)))

/-- CYC_. -/
def State.writeCyc (s : State) (off : Nat) (w : RegWr) : Option State :=
  match off with
  | 0x028 => some (s.mapCyc fun y => { y with evt := w1c y.evt w.v 0xF })
  | 0x030 => some (s.mapCyc fun y => { y with latePorts := w1c y.latePorts w.v 0xFFFFFFFF })
  | 0x034 => some (s.mapCyc fun y => { y with leadShort := w1c y.leadShort w.v 0xFFFFFFFF })
  | 0x038 => some (s.mapCyc fun y => { y with slackMin := w.v })
  | 0x03C => some (s.mapCyc fun y => { y with axSel := w.keep 0xFF })
  | _ =>
    match famIx off 0x060 4 8, famIx off 0x080 4 8 with
    | some i, _ => some (s.mapCyc fun y => { y with ovrAxis := clear256 y.ovrAxis i w.v })
    | _, some i => some (s.mapCyc fun y => { y with rxnAxis := clear256 y.rxnAxis i w.v })
    | _, _ => (s.readCyc off).map fun _ => s

/-! ## LNE_, TLR_ -/

/-- The window of a lane: its RAM windows take no write (R149). -/
def State.writeLne (s : State) (n off : Nat) (w : RegWr) : Option State :=
  if off < 0x40000 then none
  else match off with
    | 0xF0004 => some (s.mapLane n fun l => { l with fault := w1c l.fault w.v 0x7F })
    | 0xF0010 => some (s.mapLane n fun l => { l with arith := w1c l.arith w.v 0xF })
    | _ => (s.readLne n off).map fun _ => s

/-- TLR_TASKCTL: one command; several at once are BAD_CMD. Log 13 (DESIGN CHOICE). -/
def State.taskCtl (s : State) (w : RegWr) : State :=
  match w.v.toNat % 16 with
  | 0 => s
  | 1 => stateOf s (execSuspend w.src s)
  | 2 => stateOf s (execResume w.src s)
  | 4 => stateOf s (execSetflags w.src s)
  | 8 => stateOf s (execClrflags w.src s)
  | _ => s.mapTeller fun t => t.fail 2

/-- TLR_DLYCTL: one command; both at once are BAD_CMD. -/
def State.delayCtl (s : State) (w : RegWr) : State :=
  match w.v.toNat % 4 with
  | 0 => s
  | 1 => stateOf s (execInsert w.src s)
  | 2 => stateOf s (execCancel w.src s)
  | _ => s.mapTeller fun t => t.fail 2

/-- A core binding names the service core. -/
def namesSvc (v : Word) : Bool := field v 26 24 == 4

/-- TLR_. Bindings of the service core, and values that name it, are its own to write (R279). -/
def State.writeTlr (s : State) (off : Nat) (w : RegWr) : Option State :=
  match off with
  | 0x004 => some (s.mapTeller fun t => { t with evt := w1c t.evt w.v 0xF })
  | 0x008 => some (s.mapTeller fun t => { t with err := w1c t.err w.v 7 })
  | 0x00C => some (stateOf s (execSoftwareEvent w.src w.v s))
  | 0x010 => some (s.mapTeller fun t => { t with taskSel := w.keep 0x7FF })
  | 0x014 => some (s.taskCtl w)
  | 0x018 => some (s.mapTeller fun t => { t with taskArg := w.v })
  | 0x02C => some (s.mapTeller fun t => { t with latMax := w.v })
  | 0x040 => some (s.mapTeller fun t => { t with dlyTask := w.keep 0x071F07FF })
  | 0x044 => some (s.stageLo w.addr w.v)
  | 0x048 => some (s.mapTeller fun t => { t with dlyDue := s.pairOf (w.addr - 4) w.v })
  | 0x04C => some (s.mapTeller fun t => { t with dlyPeriod := w.keep 0xFFFF })
  | 0x050 => some (s.delayCtl w)
  | _ =>
    match famIx off 0x100 4 5, famIx off 0x120 4 5, famIx off 0x200 4 64 with
    | some i, _, _ => some (s.mapTeller fun t => { t with ipend := setAt t.ipend i fun p => w1c p w.v 0xFFFFFFFF })
    | _, some i, _ => some (s.mapTeller fun t => { t with ien := putAt t.ien i w.v })
    | _, _, some i =>
      if w.src ≠ .svc ∧ (namesSvc (s.teller.cbind.getD i 0) = true ∨ namesSvc w.v = true) then
        some (s.errUnmapped w.src true .w32 w.addr)
      else some (s.mapTeller fun t => { t with cbind := putAt t.cbind i w.v })
    | _, _, _ => if 0x8000 ≤ off then none else (s.readTlr off).map fun _ => s

/-! ## LGR_, ARB_ -/

/-- LGR_. -/
def State.writeLgr (s : State) (off : Nat) (w : RegWr) : Option State :=
  match off with
  | 0x028 => some (s.mapLedger fun l => { l with evt := w1c l.evt w.v 0xF })
  | _ => (s.readLgr off).map fun _ => s

/-- ARB_. -/
def State.writeArb (s : State) (off : Nat) (w : RegWr) : Option State :=
  match off with
  | 0x008 => some (s.mapArb fun a => { a with evt := w1c a.evt w.v 0xF })
  | 0x014 => some (stateOf s (execTallyClear w.src w.v s))
  | _ =>
    match famIx off 0x40C 0x10 24 with
    | some i => some (s.mapArb fun a => a.mapReq i fun q =>
        q.clearMax s.fclk w.v)
    | none => (s.readArb off).map fun _ => s

/-! ## TBP_, DSC_ -/

/-- TBP_ of port p. -/
def State.writeTbp (s : State) (p off : Nat) (w : RegWr) : Option State :=
  match off with
  | 0x004 => some (s.mapPort p fun q => { q with ctrl := w.keep 3 })
  | 0x008 => some (s.mapPort p fun q => { q with evt := w1c q.evt w.v 0xFF })
  | 0x00C => some (s.mapPort p fun q => { q with eq := w.keep 0x00FF3F1F })
  | _ => (s.readTbp p off).map fun _ => s

/-- DSC_CMD: one command; several at once have no effect. -/
def State.dscCmd (s : State) (w : RegWr) : State :=
  match w.v.toNat % 8 with
  | 1 => stateOf s (execRetry w.src s)
  | 2 => stateOf s (execStationSuspend w.src s)
  | 4 => stateOf s (execUnisolate w.src s)
  | _ => s

/-- DSC_. -/
def State.writeDsc (s : State) (off : Nat) (w : RegWr) : Option State :=
  match off with
  | 0x000 =>
    let s1 := s.mapDsc fun d => { d with ctrl := w.keep 1 }
    some (if bit s.dsc.ctrl 0 && !bit s1.dsc.ctrl 0 then { s1 with ports := s1.ports.map Port.stopEnrol } else s1)
  | 0x004 => some (s.dscCmd w)
  | 0x008 => some (s.mapDsc fun d => { d with sel := w.keep 0x1F1F })
  | 0x00C => some (s.mapDsc fun d => { d with evt := w1c d.evt w.v 0x7F })
  | _ =>
    match famIx off 0x044 4 10 with
    | some i => some (s.mapDsc fun d => { d with tol := putAt d.tol i (w.keep 0xFFFF) })
    | none => (s.readDsc off).map fun _ => s

/-! ## FBK_, CMP_ -/

/-- A write of an RWS register: it reaches the staged copy while the Charter is staging; else it is locked (R12, R77, R258). -/
def State.rws (s : State) (w : RegWr) (f : State → State) : State :=
  if s.cht.stage = .staged then f s else s.errLocked w.src w.addr

/-- FBK_PSTATn. -/
def State.pstatWrite (s : State) (n : Nat) (v : Word) : State :=
  let s1 := s.mapFb n fun p => { p with ssiErr := p.ssiErr && !bit v 3, zSeen := p.zSeen && !bit v 5 }
  if bit v 1 then s1.portOverrateClear n else s1

/-- FBK_. -/
def State.writeFbk (s : State) (off : Nat) (w : RegWr) : Option State :=
  let a := field s.io.axSel 7 0
  let load := bit s.io.axSel 8
  match off with
  | 0x010 => some (s.mapIo fun io => { io with axSel := w.keep 0x1FF })
  | 0x014 => some (s.rws w fun s => s.mapAxis a fun x =>
      if load then { x with cfgSt1 := w.keep 0xFFFFFF3F } else { x with cfgSt0 := w.keep 0xFFFFFF3F })
  | 0x018 => some (s.rws w fun s => s.mapAxis a fun x =>
      if load then { x with ssiSt1 := w.keep 0x1FF, chanFirst1 := true }
      else { x with ssiSt0 := w.keep 0x1FF, chanFirst0 := true })
  | 0x01C => some (s.axStatClear w.v)
  | _ =>
    match famAt off 0x100 0x20 16, famAt off 0x400 0x20 16, famIx off 0x600 4 8 with
    | some (n, 0x00), _, _ => some (s.rws w fun s => s.mapFb n fun p =>
        { p with cfgSt := w.keep 0x0FF7FFFF, ssiFirst := true })
    | some (n, 0x08), _, _ => some (s.pstatWrite n w.v)
    | _, some (n, 0x00), _ => some (s.trgWrite n w.v)
    | _, some (n, 0x04), _ => some (s.mapTrg n fun g =>
        { g with fired := g.fired && !bit w.v 0, latchInvalid := g.latchInvalid && !bit w.v 3 })
    | _, _, some n => some (s.fboWrite n w.v)
    | _, _, _ => (s.readFbk off).map fun _ => s

/-- FIRED, LATE and MISS of a unit cleared by ones. -/
def Cmp.clear (c : Cmp) (v : Word) : Cmp :=
  { c with fired := c.fired && !bit v 1, late := c.late && !bit v 2, miss := c.miss && !bit v 3 }

/-- CMP_. -/
def State.writeCmp (s : State) (off : Nat) (w : RegWr) : Option State :=
  match off with
  | 0x000 => some (s.mapIo fun io => { io with lFired := w1c io.lFired w.v 0xFF })
  | 0x004 => some (s.mapIo fun io => { io with sFired := w1c io.sFired w.v 0xFFFFFFFF })
  | 0x008 => some (s.mapIo fun io => { io with lBehind := w1c io.lBehind w.v 0xFF })
  | 0x00C => some (s.mapIo fun io => { io with sBehind := w1c io.sBehind w.v 0xFFFFFFFF })
  | _ =>
    match famAt off 0x100 0x20 8, famAt off 0x400 0x20 32 with
    | some (n, 0x00), _ => some (s.lcmpWrite n .cfg w.v)
    | some (n, 0x04), _ => some (s.lcmpWrite n .val w.v)
    | some (n, 0x08), _ => some (s.lcmpWrite n .step w.v)
    | some (n, 0x0C), _ => some (s.mapLcmp n fun c => c.clear w.v)
    | _, some (m, 0x00) => some (s.scmpWrite m .cfg w.v)
    | _, some (m, 0x04) => some (s.scmpWrite m .val w.v)
    | _, some (m, 0x08) => some (s.scmpWrite m .valHi w.v)
    | _, some (m, 0x0C) => some (s.scmpWrite m .step w.v)
    | _, some (m, 0x10) => some (s.mapScmp m fun c => c.clear w.v)
    | _, _ => (s.readCmp off).map fun _ => s

/-! ## ACQ_, PAR_, PTB_ -/

/-- ACQ_CTRL: one command; several at once set LOCKED (R357). -/
def State.acqCtrl (s : State) (v : Nat) : State :=
  match v % 16 with
  | 0 => s
  | 1 => s.acqStart
  | 2 => s.acqStop
  | 4 => s.acqForce
  | 8 => s.acqCal
  | _ => s.acqLocked

/-- A write of an acquisition setting: accepted in IDLE and DONE, else LOCKED (R357). -/
def State.acqSet (s : State) (f : Acq → Acq) : State :=
  if s.acq.state = .idle ∨ s.acq.state = .done then s.mapAcq f else s.acqLocked

/-- ACQ_. -/
def State.writeAcq (s : State) (off : Nat) (w : RegWr) : Option State :=
  match off with
  | 0x000 => some (s.acqCtrl w.v.toNat)
  | 0x008 => some (s.mapAcq fun a => { a with evt := w1c a.evt w.v 0x1FF })
  | 0x010 => some (if s.acq.state = .idle ∨ s.acq.state = .done then s.stageLo w.addr w.v else s.acqLocked)
  | 0x014 => some (s.acqSet fun a => { a with base := s.pairOf (w.addr - 4) w.v })
  | 0x018 => some (s.acqSet fun a => { a with size := w.keep 0x1FFFFF })
  | 0x01C => some (s.acqSet fun a => { a with prefill := w.keep 0x1FFFFF })
  | 0x020 => some (s.acqSet fun a => { a with post := w.keep 0x1FFFFF })
  | 0x024 => some (s.acqSet fun a => { a with ivl := w.keep 0x1F1F })
  | 0x02C => some (s.acqSet fun a => { a with bw := w.keep 0xFFFF })
  | 0x030 => some (s.acqSet fun a => { a with trig := w.keep 0xFFF7F })
  | 0x034 => some (s.acqSet fun a => { a with thr := w.v })
  | 0x038 => some (s.acqSet fun a => { a with hyst := w.v })
  | 0x03C => some (s.acqSet fun a => { a with calRef := w.keep 0xF })
  | 0x600 => some (stateOf s (execUploadRingSet w.src w.addr w.v s))
  | 0x604 => some (stateOf s (execUploadRingSet w.src w.addr w.v s))
  | 0x608 => some (stateOf s (execUploadRingSet w.src w.addr w.v s))
  | 0x610 => some (s.mapAcq fun a => { a with upTail := w.v })
  | _ =>
    match famIx off 0x080 4 8, famIx off 0x100 4 64, famIx off 0x200 4 72, famIx off 0x400 4 72 with
    | some i, _, _, _ => some (s.acqSet fun a => { a with fch := putAt a.fch i (w.keep 0x137) })
    | _, some i, _, _ => some (s.acqSet fun a => { a with ch := putAt a.ch i w.v })
    | _, _, some i, _ => some (s.acqSet fun a => { a with skOff := putAt a.skOff i w.v })
    | _, _, _, some i => some (s.acqSet fun a => { a with skRes := putAt a.skRes i w.v })
    | _, _, _, _ => (s.readAcq off).map fun _ => s

/-- PAR_CTRL: one command; several at once have no effect. -/
def State.parCtrl (s : State) (w : RegWr) : State :=
  match w.v.toNat % 16 with
  | 1 => s.takeback
  | 2 => s.relinquish
  | 4 => stateOf s (execInhibitSet w.src s)
  | 8 => stateOf s (execInhibitClr w.src s)
  | _ => s

/-- PAR_. -/
def State.writePar (s : State) (off : Nat) (w : RegWr) : Option State :=
  match off with
  | 0x004 => some (s.parCtrl w)
  | 0x008 => some (s.mapPar fun p => { p with evt := w1c p.evt w.v 0xFFF })
  | 0x00C => some (s.mapPar fun p => { p with cfg := w.keep 0x3F })
  | _ => (s.readPar off).map fun _ => s

/-- A value for PTB_SKEW: SKEW held within ±2,500 UI. -/
def skewSat (v : Word) : Word :=
  BitVec.ofNat 32 ((v &&& 0x1F1F).toNat + lowBits 16 (clamp (-2500) 2500 (signed 16 (field v 31 16))) * 65536)

/-- PTB_ while unlocked. -/
def State.ptbSet (s : State) (off : Nat) (w : RegWr) : Option State :=
  match off with
  | 0x008 => some (if bit w.v 0 then stateOf s (execClearAll w.src s) else s)
  | 0x010 => some (s.mapPtb fun p => { p with stretch := w.keep 0x1FF1F })
  | 0x014 => some (s.mapPtb fun p => { p with drop := w.keep 0xFFF31F, dropW := true })
  | 0x018 => some (s.mapPtb fun p => { p with bp := w.keep 0x0FFFFF1F, bpW := true })
  | 0x01C => some (s.mapPtb fun p => { p with jitter := w.keep 0xFFFF0FFF, jitterW := true })
  | 0x020 => some (s.mapPtb fun p => { p with lease := w.keep 0x3F })
  | 0x024 => some (s.mapPtb fun p => { p with skew := skewSat w.v })
  | _ =>
    match famIx off 0x100 4 32 with
    | some i => some (s.mapPtb fun p => { p with pdly := putAt p.pdly i (word (min 1000 (field w.v 9 0))) })
    | none => (s.readPtb off).map fun _ => s

/-- PTB_: a write but of PTB_EVT while locked has no effect and sets LOCKED_WRITE (R391). -/
def State.writePtb (s : State) (off : Nat) (w : RegWr) : Option State :=
  if off = 0x004 then some (s.mapPtb fun p => { p with evt := w1c p.evt w.v 0xF })
  else if s.unlocks s.cht.active then s.ptbSet off w
  else (s.readPtb off).map fun _ => s.mapPtb fun p => { p with evt := setBit p.evt 0 }

/-! ## BST_, SRM_, AGE_, DBK_, PMB_ -/

/-- BST_. -/
def State.writeBst (s : State) (off : Nat) (w : RegWr) : Option State :=
  match off with
  | 0x004 => some (s.mapBst fun b => { b with evt := w1c b.evt w.v 0x1F })
  | _ => (s.readBst off).map fun _ => s

/-- SRM_. -/
def State.writeSrm (s : State) (off : Nat) (w : RegWr) : Option State :=
  match off with
  | 0x004 => some (if bit w.v 0 then s.srmSubmit else s)
  | 0x008 => some (s.mapSrm fun r => { r with evt := w1c r.evt w.v 3 })
  | 0x010 => some (s.stageLo w.addr w.v)
  | 0x014 => some (s.mapSrm fun r => { r with reqAddr := s.pairOf (w.addr - 4) w.v })
  | _ => (s.readSrm off).map fun _ => s

/-- AGE_. -/
def State.writeAge (s : State) (off : Nat) (w : RegWr) : Option State :=
  match off with
  | 0x004 =>
    let s1 := if bit w.v 0 then s.maint else s
    some (if bit w.v 1 then s1.readNow else s1)
  | 0x008 => some (s.mapAge fun a => { a with evt := w1c a.evt w.v 0xFF })
  | _ => (s.readAge off).map fun _ => s

/-- DBK_CMD: the commands set, in the order of their bits. -/
def State.dbkCmd (s : State) (v : Word) : State :=
  let s1 := if bit v 0 then s.dbkExport else s
  let s2 := if bit v 1 then s1.dbkFlush else s1
  if bit v 2 then s2.dbkCloseAxis else s2

/-- DBK_. -/
def State.writeDbk (s : State) (off : Nat) (w : RegWr) : Option State :=
  match off with
  | 0x004 => some (s.dbkCmd w.v)
  | 0x008 => some (s.mapDbk fun d => { d with evt := w1c d.evt w.v 0x1F })
  | 0x00C => some (s.mapDbk fun d => { d with arg := w.keep 0xFF })
  | 0x010 => some (s.stageLo w.addr w.v)
  | 0x014 => some (s.mapDbk fun d => { d with dst := s.pairOf (w.addr - 4) w.v })
  | 0x018 => some (s.mapDbk fun d => { d with dstLen := w.v })
  | _ => (s.readDbk off).map fun _ => s

/-- PMB_: a write of PMB_VSET is a VOUT_COMMAND. Only the service core writes here (R423). -/
def State.writePmb (s : State) (off : Nat) (w : RegWr) : Option State :=
  if w.src ≠ .svc then some (s.errUnmapped w.src true .w32 w.addr)
  else match off with
    | 0x000 => some (s.mapPmb fun p => { p with cfg := w.keep 0x17F })
    | 0x004 =>
      let mv := field w.v 9 0
      let s1 := s.voutCommand mv
      some (if s1.age.vcore ≠ s.age.vcore then
          (s1.dayVoltage s.age.vcore mv (BitVec.ofInt 32 s.age.margin) (s.free.setWidth 32)).drawn 1
        else s1)
    | 0x010 => some (s.mapPmb fun p => { p with evt := w1c p.evt w.v 0x1F })
    | _ => (s.readPmb off).map fun _ => s

/-! ## Register accesses -/

/-- A write to a register by block and offset; none where the block has no register there that takes writes. -/
def State.writeBlock (s : State) (b : Block) (off : Nat) (w : RegWr) : Option State :=
  match b with
  | .glb => s.writeGlb off w
  | .clk => s.writeClk off w
  | .tim => s.writeTim off w
  | .cht => s.writeCht off w
  | .cyc => s.writeCyc off w
  | .tlr => s.writeTlr off w
  | .lgr => s.writeLgr off w
  | .arb => s.writeArb off w
  | .dsc => s.writeDsc off w
  | .fbk => s.writeFbk off w
  | .cmp => s.writeCmp off w
  | .acq => s.writeAcq off w
  | .par => s.writePar off w
  | .bst => s.writeBst off w
  | .srm => s.writeSrm off w
  | .age => s.writeAge off w
  | .dbk => s.writeDbk off w
  | .pmb => s.writePmb off w
  | .ptb => s.writePtb off w
  | .tbp p => s.writeTbp p off w
  | .lne n => s.writeLne n off w

/-- A 32-bit write to a register block: an unassigned address sets UNMAPPED (R10). -/
def State.regWrite (s : State) (src : Source) (b : Block) (off addr : Nat) (v : Word) : State :=
  match s.writeBlock b off { src := src, addr := addr, v := v } with
  | some t => t
  | none => s.errUnmapped src true .w32 addr

/-- A 32-bit read of a register block: an unassigned address reads 0 (R10); a _LO register latches its _HI, and the next read of
that _HI returns the latched value (R11); a read of TLR_TAKE is refused (R274). -/
def State.regRead (s : State) (src : Source) (b : Block) (off addr : Nat) : State :=
  let v := (s.readBlock b off).getD 0
  if b = .tlr ∧ off = 0x0F0 then stateOf s (execTlrTakeRead src s)
  else if isLo b off then
    let hi := (s.readBlock b (off + 4)).getD 0
    ({ s with readData := v.setWidth 64 }).mapGlb fun g =>
      { g with hiLatch := (addr + 4, hi) :: g.hiLatch.filter fun e => e.1 != addr + 4 }
  else match s.glb.hiLatch.find? fun e => e.1 == addr with
    | some e => ({ s with readData := e.2.setWidth 64 }).mapGlb fun g =>
        { g with hiLatch := g.hiLatch.filter fun e => e.1 != addr }
    | none => { s with readData := v.setWidth 64 }

/-! ## Widths, memories and the address map (R9, R18, R72, R149, R288, R290, R450, R451) -/

/-- Bytes of a width. -/
def widthBytes : Width → Nat
  | .w8 => 1
  | .w16 => 2
  | .w32 => 4
  | .w64 => 8

/-- The bytes of an access read from little-endian words. -/
def pickBytes (width : Width) (addr : Nat) (word : Nat → Word) : Word64 :=
  let w : Word64 := word (addr / 4 * 4 + 4) ++ word (addr / 4 * 4)
  match width with
  | .w8 => (w >>> (8 * (addr % 4))) &&& 0xFF
  | .w16 => (w >>> (8 * (addr % 4))) &&& 0xFFFF
  | .w32 => (w >>> (8 * (addr % 4))) &&& 0xFFFFFFFF
  | .w64 => w

/-- The words of an access, each with the old word under the bytes that are not written. -/
def mergeWords (width : Width) (addr : Nat) (value : Word64) (old : Word) : List (Nat × Word) :=
  let a := addr / 4 * 4
  let sh := 8 * (addr % 4)
  let put := fun (m : Nat) =>
    (old &&& ~~~(BitVec.ofNat 32 (m <<< sh))) ||| BitVec.ofNat 32 ((value.toNat % (m + 1)) <<< sh)
  match width with
  | .w8 => [(a, put 0xFF)]
  | .w16 => [(a, put 0xFFFF)]
  | .w32 => [(a, value.setWidth 32)]
  | .w64 => [(a, value.setWidth 32), (a + 4, (value >>> 32).setWidth 32)]

/-- Where an address lies (R450). -/
inductive Place where
  | block (b : Block) (off : Nat)
  | laneRam (n off : Nat)
  | axisStore (off : Nat)
  | window
  | dram
  | nowhere
  deriving DecidableEq, Repr

/-- The place of an address: DRAM begins at 0x8_0000_0000. -/
def State.placeAt (s : State) (addr : Nat) : Place :=
  if 0x42000000 ≤ addr ∧ addr < 0x42100000 then .axisStore (addr - 0x42000000)
  else if 0x50000000 ≤ addr ∧ addr < 0x60000000 then .window
  else if 0x800000000 ≤ addr ∧ addr < 0x800000000 + s.dramMib * 2 ^ 20 then .dram
  else match regBlock addr with
    | some (.lne n, off) => if off < 0x40000 then .laneRam n off else .block (.lne n) off
    | some (b, off) => .block b off
    | none => .nowhere

/-- Naturally aligned. -/
def aligned (width : Width) (addr : Nat) : Bool := addr % widthBytes width == 0

/-- Nothing returned. -/
def State.noData (s : State) : State := { s with readData := 0 }

/-- GLB_ACCESS_ADDR_LO, GLB_ACCESS_ADDR_HI and GLB_ACCESS_SRC: a read of them raises no access error of its own (R454). -/
def quietRead (b : Block) (off : Nat) : Bool := b == .glb && decide (8 ≤ off) && decide (off < 0x14)

/-- An access to DRAM through BAR4 is a transfer of requester 23; what of the cores' accesses their L2 passes on is not stated
(R294, R443). Log 97 (DESIGN CHOICE). -/
def State.dramBus (s : State) (src : Source) : State := if src = .host then s.transfer 23 else s

/-- A read by a core or the host. An access of a core to an address outside every region raises an access fault there (R451).
Log 12 (DESIGN CHOICE). -/
def State.busRead (s : State) (src : Source) (width : Width) (addr : Nat) : State :=
  match s.placeAt addr with
  | .block b off =>
    if width = .w32 ∧ addr % 4 = 0 then s.regRead src b off addr
    else if quietRead b off then s.noData
    else s.noData.errWidth src false width addr
  | .laneRam n off =>
    if aligned width addr then
      { s with readData := pickBytes width off fun a => (s.readLne n a).getD 0 }
    else s.noData.errWidth src false width addr
  | .axisStore off =>
    if aligned width addr then { s with readData := pickBytes width off fun a => memRead s.pages (a / 4) }
    else s.noData.errWidth src false width addr
  | .window => stateOf s (execLedgerWindowRead src width addr s)
  | .dram =>
    if s.dramOk addr (widthBytes width) then
      { s.dramBus src with readData := BitVec.ofNat 64 ((List.range (widthBytes width)).foldl (fun n i =>
          n + (memRead s.dram (addr + i)).toNat * 256 ^ i) 0) }
    else s.noData.errUnmapped src false width addr
  | .nowhere => (s.noData.errUnmapped src false width addr).mapGlb fun g => g.coreAccess src false addr

/-- A page word as the staged Charter has it so far. Log 14 (DEDUCED). -/
def State.stagedWord (s : State) (i : Nat) : Word :=
  match s.cht.pageWrites.find? fun e => e.1 == i with
  | some e => e.2
  | none => memRead s.pages i

/-- A write to the axis store: the service core's, while the Charter is staging and in the area of block parameters and block
state, goes with the staged Charter; no other has an effect (R18, R77, R98). Log 14 (DEDUCED). -/
def State.axisStoreWrite (s : State) (src : Source) (width : Width) (addr off : Nat) (value : Word64) : State :=
  if src = .svc ∧ s.cht.stage = .staged ∧ 0x300 ≤ off % 4096 then
    if aligned width addr then
      let ws := mergeWords width off value (s.stagedWord (off / 4))
      s.mapCht fun t => { t with pageWrites := (ws.map fun e => (e.1 / 4, e.2)).reverse ++ t.pageWrites }
    else s.errWidth src true width addr
  else s.errUnmapped src true width addr

/-- A write by a core or the host. Log 12 (DESIGN CHOICE). -/
def State.busWrite (s : State) (src : Source) (width : Width) (addr : Nat) (value : Word64) : State :=
  match s.placeAt addr with
  | .block b off =>
    if width = .w32 ∧ addr % 4 = 0 then s.regWrite src b off addr (value.setWidth 32) else s.errWidth src true width addr
  | .laneRam _ _ => s.errUnmapped src true width addr
  | .axisStore off => s.axisStoreWrite src width addr off value
  | .window => stateOf s (execLedgerWindowWrite src width addr value s)
  | .dram =>
    if s.dramOk addr (widthBytes width) then
      { s.dramBus src with dram := memWriteList s.dram addr ((List.range (widthBytes width)).map fun i => value.extractLsb' (8 * i) 8) }
    else s.errUnmapped src true width addr
  | .nowhere => (s.errUnmapped src true width addr).mapGlb fun g => g.coreAccess src true addr

/-- The address is one that a PCIe host reaches: a BAR of R443. -/
def State.inBar (s : State) (addr : Nat) : Bool :=
  (decide (0x40000000 ≤ addr) && decide (addr < 0x44000000)) || (decide (0x50000000 ≤ addr) && decide (addr < 0x60000000))
    || (decide (0x800000000 ≤ addr) && decide (addr < 0x800000000 + s.dramMib * 2 ^ 20))

/-! ## The commands -/

/-- REGISTER_WRITE: a write by a core or the host. -/
def execRegisterWrite (src : Source) (width : Width) (addr : Nat) (value : Word64) (s : State) :
    Host.Outcome State Fault Refusal :=
  if src = .host ∧ s.inBar addr = false then .next s else .next (s.busWrite src width addr value)

/-- PAIR_LO_READ: a 32-bit read; of a _LO register it latches the _HI register. -/
def execPairLoRead (src : Source) (addr : Nat) (s : State) : Host.Outcome State Fault Refusal :=
  if src = .host ∧ s.inBar addr = false then .next s.noData else .next (s.busRead src .w32 addr)

/-- REFUSED_ACCESS: an access of a width or at an address that is not permitted. What refuses it is judged from the state; one
that nothing refuses is an access like any other. -/
def execRefusedAccess (src : Source) (write : Bool) (width : Width) (addr : Nat) (value : Word64) (s : State) :
    Host.Outcome State Fault Refusal :=
  if src = .host ∧ s.inBar addr = false then .next (if write then s else s.noData)
  else .next (if write then s.busWrite src width addr value else s.busRead src width addr)

end Sys2Proof.Machine
end

