-- ==== Sys2Proof/Machine/Dispatch.lean ====
section
/-!
DEFINITION. One arm per command: its meaning, on everything but the queue of waiting commands.
-/
namespace Sys2Proof.Machine
open Sys2Proof

def exec (i : Instr) (s : State) : Host.Outcome State Fault Refusal :=
  match i with
  | .registerWrite src width addr value => Sys2Proof.Machine.execRegisterWrite src width addr value s
  | .pairLoRead src addr => Sys2Proof.Machine.execPairLoRead src addr s
  | .refLost => Sys2Proof.Machine.execRefLost s
  | .holdoverLimit => Sys2Proof.Machine.execHoldoverLimit s
  | .refBack => Sys2Proof.Machine.execRefBack s
  | .pllLockLoss => Sys2Proof.Machine.execPllLockLoss s
  | .clkDerateWrite src value => Sys2Proof.Machine.execClkDerateWrite src value s
  | .derateIdleChange => Sys2Proof.Machine.execDerateIdleChange s
  | .tick1us => Sys2Proof.Machine.execTick1us s
  | .plantStepWrite src value => Sys2Proof.Machine.execPlantStepWrite src value s
  | .calendarSet src hi => Sys2Proof.Machine.execCalendarSet src hi s
  | .calendarSetApply => Sys2Proof.Machine.execCalendarSetApply s
  | .calendarSecond => Sys2Proof.Machine.execCalendarSecond s
  | .capture src => Sys2Proof.Machine.execCapture src s
  | .captureDone => Sys2Proof.Machine.execCaptureDone s
  | .vbakLost => Sys2Proof.Machine.execVbakLost s
  | .brownOut => Sys2Proof.Machine.execBrownOut s
  | .load src => Sys2Proof.Machine.execLoad src s
  | .loadComplete => Sys2Proof.Machine.execLoadComplete s
  | .discard src => Sys2Proof.Machine.execDiscard src s
  | .start src => Sys2Proof.Machine.execStart src s
  | .arm src => Sys2Proof.Machine.execArm src s
  | .disarm src => Sys2Proof.Machine.execDisarm src s
  | .localSample gpio => Sys2Proof.Machine.execLocalSample gpio s
  | .localSampleEvent => Sys2Proof.Machine.execLocalSampleEvent s
  | .returnDue port => Sys2Proof.Machine.execReturnDue port s
  | .deadline => Sys2Proof.Machine.execDeadline s
  | .clearingPoint => Sys2Proof.Machine.execClearingPoint s
  | .issueLaunch port => Sys2Proof.Machine.execIssueLaunch port s
  | .returnFrame port frame => Sys2Proof.Machine.execReturnFrame port frame s
  | .linkAlign rx => Sys2Proof.Machine.execLinkAlign rx s
  | .linkLoss rx => Sys2Proof.Machine.execLinkLoss rx s
  | .slotAck port station effective => Sys2Proof.Machine.execSlotAck port station effective s
  | .paramResp port msg => Sys2Proof.Machine.execParamResp port msg s
  | .acqData port msg => Sys2Proof.Machine.execAcqData port msg s
  | .discoveryLaunch port => Sys2Proof.Machine.execDiscoveryLaunch port s
  | .discoveryReply port reply => Sys2Proof.Machine.execDiscoveryReply port reply s
  | .discoveryReplyLost port => Sys2Proof.Machine.execDiscoveryReplyLost port s
  | .timingComplete port pos => Sys2Proof.Machine.execTimingComplete port pos s
  | .lockTimeout port pos => Sys2Proof.Machine.execLockTimeout port pos s
  | .effectiveReached port pos => Sys2Proof.Machine.execEffectiveReached port pos s
  | .stationAbsent port pos => Sys2Proof.Machine.execStationAbsent port pos s
  | .toleranceDecay => Sys2Proof.Machine.execToleranceDecay s
  | .isolateNext port => Sys2Proof.Machine.execIsolateNext port s
  | .retry src => Sys2Proof.Machine.execRetry src s
  | .stationSuspend src => Sys2Proof.Machine.execStationSuspend src s
  | .unisolate src => Sys2Proof.Machine.execUnisolate src s
  | .nop lane f => Sys2Proof.Machine.execNop lane f s
  | .mpy4 lane f => Sys2Proof.Machine.execMpy4 lane f s
  | .mac4 lane f => Sys2Proof.Machine.execMac4 lane f s
  | .msu4 lane f => Sys2Proof.Machine.execMsu4 lane f s
  | .mpy lane f => Sys2Proof.Machine.execMpy lane f s
  | .mac lane f => Sys2Proof.Machine.execMac lane f s
  | .msu lane f => Sys2Proof.Machine.execMsu lane f s
  | .adl lane f => Sys2Proof.Machine.execAdl lane f s
  | .adda lane f => Sys2Proof.Machine.execAdda lane f s
  | .suba lane f => Sys2Proof.Machine.execSuba lane f s
  | .nega lane f => Sys2Proof.Machine.execNega lane f s
  | .clra lane f => Sys2Proof.Machine.execClra lane f s
  | .sha lane f => Sys2Proof.Machine.execSha lane f s
  | .lda lane f => Sys2Proof.Machine.execLda lane f s
  | .shae lane f => Sys2Proof.Machine.execShae lane f s
  | .rnd lane f => Sys2Proof.Machine.execRnd lane f s
  | .rnde lane f => Sys2Proof.Machine.execRnde lane f s
  | .nrnd lane f => Sys2Proof.Machine.execNrnd lane f s
  | .expa lane f => Sys2Proof.Machine.execExpa lane f s
  | .rsc lane f => Sys2Proof.Machine.execRsc lane f s
  | .bxclr lane f => Sys2Proof.Machine.execBxclr lane f s
  | .shlb lane f => Sys2Proof.Machine.execShlb lane f s
  | .li lane f => Sys2Proof.Machine.execLi lane f s
  | .mov lane f => Sys2Proof.Machine.execMov lane f s
  | .addn lane f => Sys2Proof.Machine.execAddn lane f s
  | .subn lane f => Sys2Proof.Machine.execSubn lane f s
  | .andn lane f => Sys2Proof.Machine.execAndn lane f s
  | .orn lane f => Sys2Proof.Machine.execOrn lane f s
  | .xorn lane f => Sys2Proof.Machine.execXorn lane f s
  | .shln lane f => Sys2Proof.Machine.execShln lane f s
  | .sarn lane f => Sys2Proof.Machine.execSarn lane f s
  | .adde lane f => Sys2Proof.Machine.execAdde lane f s
  | .imul lane f => Sys2Proof.Machine.execImul lane f s
  | .idiv lane f => Sys2Proof.Machine.execIdiv lane f s
  | .mine lane f => Sys2Proof.Machine.execMine lane f s
  | .pld lane f => Sys2Proof.Machine.execPld lane f s
  | .pst lane f => Sys2Proof.Machine.execPst lane f s
  | .padd lane f => Sys2Proof.Machine.execPadd lane f s
  | .psub lane f => Sys2Proof.Machine.execPsub lane f s
  | .pext lane f => Sys2Proof.Machine.execPext lane f s
  | .pacc lane f => Sys2Proof.Machine.execPacc lane f s
  | .pbf lane f => Sys2Proof.Machine.execPbf lane f s
  | .lget lane f => Sys2Proof.Machine.execLget lane f s
  | .lgetu lane f => Sys2Proof.Machine.execLgetu lane f s
  | .lgetb lane f => Sys2Proof.Machine.execLgetb lane f s
  | .lgetbu lane f => Sys2Proof.Machine.execLgetbu lane f s
  | .ledgerReadComplete lane => Sys2Proof.Machine.execLedgerReadComplete lane s
  | .lput lane f => Sys2Proof.Machine.execLput lane f s
  | .bra lane f => Sys2Proof.Machine.execBra lane f s
  | .call lane f => Sys2Proof.Machine.execCall lane f s
  | .callb lane f => Sys2Proof.Machine.execCallb lane f s
  | .ret lane f => Sys2Proof.Machine.execRet lane f s
  | .rep lane f => Sys2Proof.Machine.execRep lane f s
  | .take lane => Sys2Proof.Machine.execTake lane s
  | .done lane => Sys2Proof.Machine.execDone lane s
  | .commitComplete lane => Sys2Proof.Machine.execCommitComplete lane s
  | .stepPulse pair => Sys2Proof.Machine.execStepPulse pair s
  | .feedbackEdge port levels heldNs => Sys2Proof.Machine.execFeedbackEdge port levels heldNs s
  | .ssiTransfer port ready bits tailLow => Sys2Proof.Machine.execSsiTransfer port ready bits tailLow s
  | .triggerInput n level heldNs => Sys2Proof.Machine.execTriggerInput n level heldNs s
  | .compareArm src station unit reg value => Sys2Proof.Machine.execCompareArm src station unit reg value s
  | .comparePulseEnd unit => Sys2Proof.Machine.execComparePulseEnd unit s
  | .overrateClear src which => Sys2Proof.Machine.execOverrateClear src which s
  | .refLostClear src => Sys2Proof.Machine.execRefLostClear src s
  | .eventArrival => Sys2Proof.Machine.execEventArrival s
  | .handOff => Sys2Proof.Machine.execHandOff s
  | .tlrTakeRead src => Sys2Proof.Machine.execTlrTakeRead src s
  | .delayEntryFire => Sys2Proof.Machine.execDelayEntryFire s
  | .insert src => Sys2Proof.Machine.execInsert src s
  | .cancel src => Sys2Proof.Machine.execCancel src s
  | .suspend src => Sys2Proof.Machine.execSuspend src s
  | .resume src => Sys2Proof.Machine.execResume src s
  | .setflags src => Sys2Proof.Machine.execSetflags src s
  | .clrflags src => Sys2Proof.Machine.execClrflags src s
  | .softwareEvent src value => Sys2Proof.Machine.execSoftwareEvent src value s
  | .ledgerWindowRead src width addr => Sys2Proof.Machine.execLedgerWindowRead src width addr s
  | .ledgerWindowWrite src width addr value => Sys2Proof.Machine.execLedgerWindowWrite src width addr value s
  | .ledgerReady => Sys2Proof.Machine.execLedgerReady s
  | .requestEligible req => Sys2Proof.Machine.execRequestEligible req s
  | .arbDecision => Sys2Proof.Machine.execArbDecision s
  | .promotion req => Sys2Proof.Machine.execPromotion req s
  | .allowanceWindowEnd => Sys2Proof.Machine.execAllowanceWindowEnd s
  | .transferComplete ecc => Sys2Proof.Machine.execTransferComplete ecc s
  | .tallyClear src value => Sys2Proof.Machine.execTallyClear src value s
  | .dramAccessComplete => Sys2Proof.Machine.execDramAccessComplete s
  | .acqStart src => Sys2Proof.Machine.execAcqStart src s
  | .acqStop src => Sys2Proof.Machine.execAcqStop src s
  | .force src => Sys2Proof.Machine.execForce src s
  | .cal src => Sys2Proof.Machine.execCal src s
  | .fastSample => Sys2Proof.Machine.execFastSample s
  | .calTimeout => Sys2Proof.Machine.execCalTimeout s
  | .intervalEnd fast => Sys2Proof.Machine.execIntervalEnd fast s
  | .bandwidthCheck => Sys2Proof.Machine.execBandwidthCheck s
  | .blockWritten => Sys2Proof.Machine.execBlockWritten s
  | .uploadRingSet src addr value => Sys2Proof.Machine.execUploadRingSet src addr value s
  | .heartbeat lane cycle heard sent ok => Sys2Proof.Machine.execHeartbeat lane cycle heard sent ok s
  | .escrowBegin k epoch => Sys2Proof.Machine.execEscrowBegin k epoch s
  | .escrowLine axis line words => Sys2Proof.Machine.execEscrowLine axis line words s
  | .escrowTask task st flags => Sys2Proof.Machine.execEscrowTask task st flags s
  | .escrowDelay list entries => Sys2Proof.Machine.execEscrowDelay list entries s
  | .escrowDelta id entry => Sys2Proof.Machine.execEscrowDelta id entry s
  | .escrowPort port hops cuts => Sys2Proof.Machine.execEscrowPort port hops cuts s
  | .escrowEnd count => Sys2Proof.Machine.execEscrowEnd count s
  | .takebackRequest kt => Sys2Proof.Machine.execTakebackRequest kt s
  | .takebackAck => Sys2Proof.Machine.execTakebackAck s
  | .go => Sys2Proof.Machine.execGo s
  | .abandon => Sys2Proof.Machine.execAbandon s
  | .mirrorDown => Sys2Proof.Machine.execMirrorDown s
  | .mirrorUp => Sys2Proof.Machine.execMirrorUp s
  | .issueFrameReceive port hdr => Sys2Proof.Machine.execIssueFrameReceive port hdr s
  | .takeoverDecide => Sys2Proof.Machine.execTakeoverDecide s
  | .seekClaim => Sys2Proof.Machine.execSeekClaim s
  | .takebackStart => Sys2Proof.Machine.execTakebackStart s
  | .takeback src => Sys2Proof.Machine.execTakeback src s
  | .relinquish src => Sys2Proof.Machine.execRelinquish src s
  | .inhibitSet src => Sys2Proof.Machine.execInhibitSet src s
  | .inhibitClr src => Sys2Proof.Machine.execInhibitClr src s
  | .clearAll src => Sys2Proof.Machine.execClearAll src s
  | .dropDone => Sys2Proof.Machine.execDropDone s
  | .bpDone => Sys2Proof.Machine.execBpDone s
  | .deviceReset cause pairsel => Sys2Proof.Machine.execDeviceReset cause pairsel s
  | .pllLock => Sys2Proof.Machine.execPllLock s
  | .waveEnd segs meas => Sys2Proof.Machine.execWaveEnd segs meas s
  | .waveTimeLimit segs meas => Sys2Proof.Machine.execWaveTimeLimit segs meas s
  | .keysReady => Sys2Proof.Machine.execKeysReady s
  | .jtagInstruction code => Sys2Proof.Machine.execJtagInstruction code s
  | .listenEnd => Sys2Proof.Machine.execListenEnd s
  | .lastReducedApply => Sys2Proof.Machine.execLastReducedApply s
  | .fullServiceBegin => Sys2Proof.Machine.execFullServiceBegin s
  | .submit src => Sys2Proof.Machine.execSubmit src s
  | .strongroomAnswer => Sys2Proof.Machine.execStrongroomAnswer s
  | .monitorRead r => Sys2Proof.Machine.execMonitorRead r s
  | .readNow src => Sys2Proof.Machine.execReadNow src s
  | .maint src => Sys2Proof.Machine.execMaint src s
  | .retuneTrialEnd height width => Sys2Proof.Machine.execRetuneTrialEnd height width s
  | .dailyProjection => Sys2Proof.Machine.execDailyProjection s
  | .pmbusVerify readMv reply => Sys2Proof.Machine.execPmbusVerify readMv reply s
  | .smbalert => Sys2Proof.Machine.execSmbalert s
  | .exportDaybook src => Sys2Proof.Machine.execExportDaybook src s
  | .exportComplete => Sys2Proof.Machine.execExportComplete s
  | .flush src => Sys2Proof.Machine.execFlush src s
  | .closeAxis src => Sys2Proof.Machine.execCloseAxis src s
  | .daybookHourly => Sys2Proof.Machine.execDaybookHourly s
  | .thermN temps => Sys2Proof.Machine.execThermN temps s
  | .refclkReturn => Sys2Proof.Machine.execRefclkReturn s
  | .vbakRestore => Sys2Proof.Machine.execVbakRestore s
  | .resetRelease => Sys2Proof.Machine.execResetRelease s
  | .refusedAccess src write width addr value => Sys2Proof.Machine.execRefusedAccess src write width addr value s
  | .stepPulseEnd pair => Sys2Proof.Machine.execStepPulseEnd pair s
  | .ainConversionDone n microvolts => Sys2Proof.Machine.execAinConversionDone n microvolts s

end Sys2Proof.Machine
end

