-- ==== Sys2Proof/Machine/Step.lean ====
section
/-!
DEFINITION. One step of the block: the command at the front of the queue is carried out on the rest; on an empty queue
one nanosecond passes.
-/
namespace Sys2Proof.Machine
open Sys2Proof

/-- One step. With a command waiting, the first is taken from the queue and carried out. With none, the device's own
clocks advance by one TCLK period. Log 3 (DESIGN CHOICE). -/
def step (s : State) : Host.Outcome State Fault Refusal :=
  match s.pending with
  | c :: cs => exec c { s with pending := cs }
  | [] => .next s.tclk

/-- The state with the command a table word spells at the front of its queue. No row of the table gives bits, so no word
spells a command and the state is unchanged. Log 5 (DESIGN CHOICE). -/
def State.withFetchWord (s : State) (nbits w : Nat) : State :=
  match decodeTableWord nbits w with
  | some c => { s with pending := c :: s.pending }
  | none => s

end Sys2Proof.Machine
end

