-- ==== Sys2Proof/WellFormed.lean ====
section
/-!
DEFINITION. Which commands can reach the block: every operand lies within the field, the port count or the pin count that the
spec gives it. The meanings are total and do not rest on this; a command outside it names nothing the device has.
-/
namespace Sys2Proof

/-- Format P of R133: each field within its bits. -/
def PFields.ok (f : PFields) : Bool := decide (f.acc < 4) && decide (f.xs < 8) && decide (f.ys < 16) && decide (f.sh < 64)

/-- Format I of R133: seven-bit register codes. -/
def IFields.ok (f : IFields) : Bool := decide (f.dst < 128) && decide (f.src < 128)

/-- Format C of R133: each field within its bits. -/
def CFields.ok (f : CFields) : Bool :=
  decide (f.reg < 128) && decide (f.cond < 16) && decide (f.imm16 < 65536) && decide (f.target < 32768)

/-- A message of R319: NWORDS, bits [31:24] of its header word, counts its payload words. -/
def Msg.ok (m : Msg) : Bool := m.hdr.toNat / 2 ^ 24 == m.payload.length

/-- A return slot of R314: a header of four words. -/
def RetSlot.ok (r : RetSlot) : Bool := r.hdr.length == 4 && r.msgs.all Msg.ok

/-- A return frame of R313: a header of two words and at most sixteen slots. -/
def RetFrame.ok (f : RetFrame) : Bool := f.hdr.length == 2 && decide (f.slots.length ≤ 16) && f.slots.all RetSlot.ok

/-- An upstream cell of R330: four status words; a message in it has at most five payload words (R331). -/
def Cell.ok (c : Cell) : Bool :=
  c.status.length == 4 && (match c.msg with
    | some m => m.ok && decide (m.payload.length ≤ 5)
    | none => true)

/-- A discovery reply of R330: a header of four words and at most sixteen cells. -/
def DiscReply.ok (r : DiscReply) : Bool := r.hdr.length == 4 && decide (r.cells.length ≤ 16) && r.cells.all Cell.ok

/-- An issue header of R310: at least nine words, and with the sixteen bytes of RLEN and of GRANT at most seventeen. -/
def IssueHdr.ok (h : IssueHdr) : Bool := decide (9 ≤ h.hdr.length) && decide (h.hdr.length ≤ 17)

/-- The stamps of a heartbeat: times of 64 bits in ns (R367). -/
def HbStamps.ok (h : HbStamps) : Bool := decide (h.dep < 100 * 2 ^ 64) && decide (h.arr < 100 * 2 ^ 64)

/-- One of 32 Tabna ports or of two mirror lanes. -/
def Receiver.ok : Receiver → Bool
  | .port p => decide (p < 32)
  | .mirror l => decide (l < 2)

/-- One of sixteen local feedback ports, or the selected station channel. -/
def OverrateOf.ok : OverrateOf → Bool
  | .port n => decide (n < 16)
  | .axis => true

/-- A reading covers every monitor of R416. -/
def MonReading.ok (r : MonReading) : Bool :=
  r.slack.length == 21 && r.ro.length == 48 && r.eyes.length == 32 && r.mirEyes.length == 2

/-- The measurements of R400 cover every sensor and every link. -/
def WaveMeas.ok (m : WaveMeas) : Bool := m.temps.length == 8 && m.ser.length == 32 && m.mir.length == 2

/-- An entry of R380: a task number of eleven bits and a flag bit of 32. -/
def DelayRec.ok (d : DelayRec) : Bool := decide (d.task < 2048) && decide (d.flag < 32)

/-- What the regulator answers fits the register that shows it (R422). -/
def PmbReply.ok (r : PmbReply) : Bool := decide (r.iout < 2 ^ 32)

/-- The operands of a command lie within what the spec gives them. -/
def Instr.wellFormed (i : Instr) : Bool :=
  match i with
  | .registerWrite _ _ addr _ => decide (addr < 2 ^ 40)
  | .pairLoRead _ addr => decide (addr < 2 ^ 40)
  | .refLost => true
  | .holdoverLimit => true
  | .refBack => true
  | .pllLockLoss => true
  | .clkDerateWrite _ _ => true
  | .derateIdleChange => true
  | .tick1us => true
  | .plantStepWrite _ _ => true
  | .calendarSet _ _ => true
  | .calendarSetApply => true
  | .calendarSecond => true
  | .capture _ => true
  | .captureDone => true
  | .vbakLost => true
  | .brownOut => true
  | .load _ => true
  | .loadComplete => true
  | .discard _ => true
  | .start _ => true
  | .arm _ => true
  | .disarm _ => true
  | .localSample _ => true
  | .localSampleEvent => true
  | .returnDue port => decide (port < 32)
  | .deadline => true
  | .clearingPoint => true
  | .issueLaunch port => decide (port < 32)
  | .returnFrame port frame => decide (port < 32) && frame.ok
  | .linkAlign rx => rx.ok
  | .linkLoss rx => rx.ok
  | .slotAck port station effective => decide (port < 32) && decide (station < 512) && decide (effective < 2 ^ 64)
  | .paramResp port msg => decide (port < 32) && msg.ok
  | .acqData port msg => decide (port < 32) && msg.ok
  | .discoveryLaunch port => decide (port < 32)
  | .discoveryReply port reply => decide (port < 32) && reply.ok
  | .discoveryReplyLost port => decide (port < 32)
  | .timingComplete port pos => decide (port < 32) && decide (1 ≤ pos) && decide (pos ≤ 16)
  | .lockTimeout port pos => decide (port < 32) && decide (1 ≤ pos) && decide (pos ≤ 16)
  | .effectiveReached port pos => decide (port < 32) && decide (1 ≤ pos) && decide (pos ≤ 16)
  | .stationAbsent port pos => decide (port < 32) && decide (1 ≤ pos) && decide (pos ≤ 16)
  | .toleranceDecay => true
  | .isolateNext port => decide (port < 32)
  | .retry _ => true
  | .stationSuspend _ => true
  | .unisolate _ => true
  | .nop lane f => decide (lane < 16) && f.ok
  | .mpy4 lane f => decide (lane < 16) && f.ok
  | .mac4 lane f => decide (lane < 16) && f.ok
  | .msu4 lane f => decide (lane < 16) && f.ok
  | .mpy lane f => decide (lane < 16) && f.ok
  | .mac lane f => decide (lane < 16) && f.ok
  | .msu lane f => decide (lane < 16) && f.ok
  | .adl lane f => decide (lane < 16) && f.ok
  | .adda lane f => decide (lane < 16) && f.ok
  | .suba lane f => decide (lane < 16) && f.ok
  | .nega lane f => decide (lane < 16) && f.ok
  | .clra lane f => decide (lane < 16) && f.ok
  | .sha lane f => decide (lane < 16) && f.ok
  | .lda lane f => decide (lane < 16) && f.ok
  | .shae lane f => decide (lane < 16) && f.ok
  | .rnd lane f => decide (lane < 16) && f.ok
  | .rnde lane f => decide (lane < 16) && f.ok
  | .nrnd lane f => decide (lane < 16) && f.ok
  | .expa lane f => decide (lane < 16) && f.ok
  | .rsc lane f => decide (lane < 16) && f.ok
  | .bxclr lane f => decide (lane < 16) && f.ok
  | .shlb lane f => decide (lane < 16) && f.ok
  | .li lane f => decide (lane < 16) && f.ok
  | .mov lane f => decide (lane < 16) && f.ok
  | .addn lane f => decide (lane < 16) && f.ok
  | .subn lane f => decide (lane < 16) && f.ok
  | .andn lane f => decide (lane < 16) && f.ok
  | .orn lane f => decide (lane < 16) && f.ok
  | .xorn lane f => decide (lane < 16) && f.ok
  | .shln lane f => decide (lane < 16) && f.ok
  | .sarn lane f => decide (lane < 16) && f.ok
  | .adde lane f => decide (lane < 16) && f.ok
  | .imul lane f => decide (lane < 16) && f.ok
  | .idiv lane f => decide (lane < 16) && f.ok
  | .mine lane f => decide (lane < 16) && f.ok
  | .pld lane f => decide (lane < 16) && f.ok
  | .pst lane f => decide (lane < 16) && f.ok
  | .padd lane f => decide (lane < 16) && f.ok
  | .psub lane f => decide (lane < 16) && f.ok
  | .pext lane f => decide (lane < 16) && f.ok
  | .pacc lane f => decide (lane < 16) && f.ok
  | .pbf lane f => decide (lane < 16) && f.ok
  | .lget lane f => decide (lane < 16) && f.ok
  | .lgetu lane f => decide (lane < 16) && f.ok
  | .lgetb lane f => decide (lane < 16) && f.ok
  | .lgetbu lane f => decide (lane < 16) && f.ok
  | .ledgerReadComplete lane => decide (lane < 16)
  | .lput lane f => decide (lane < 16) && f.ok
  | .bra lane f => decide (lane < 16) && f.ok
  | .call lane f => decide (lane < 16) && f.ok
  | .callb lane f => decide (lane < 16) && f.ok
  | .ret lane f => decide (lane < 16) && f.ok
  | .rep lane f => decide (lane < 16) && f.ok
  | .take lane => decide (lane < 16)
  | .done lane => decide (lane < 16)
  | .commitComplete lane => decide (lane < 16)
  | .stepPulse pair => decide (pair < 16)
  | .feedbackEdge port _ heldNs => decide (port < 16) && decide (heldNs < 2 ^ 64)
  | .ssiTransfer port _ _ _ => decide (port < 16)
  | .triggerInput n _ heldNs => decide (n < 16) && decide (heldNs < 2 ^ 64)
  | .compareArm _ station unit _ _ => decide (unit < if station then 32 else 8)
  | .comparePulseEnd unit => decide (unit < 8)
  | .overrateClear _ which => which.ok
  | .refLostClear _ => true
  | .eventArrival => true
  | .handOff => true
  | .tlrTakeRead _ => true
  | .delayEntryFire => true
  | .insert _ => true
  | .cancel _ => true
  | .suspend _ => true
  | .resume _ => true
  | .setflags _ => true
  | .clrflags _ => true
  | .softwareEvent _ _ => true
  | .ledgerWindowRead _ _ addr => decide (addr < 2 ^ 40)
  | .ledgerWindowWrite _ _ addr _ => decide (addr < 2 ^ 40)
  | .ledgerReady => true
  | .requestEligible req => decide (req < 24)
  | .arbDecision => true
  | .promotion req => decide (req < 24)
  | .allowanceWindowEnd => true
  | .transferComplete _ => true
  | .tallyClear _ _ => true
  | .dramAccessComplete => true
  | .acqStart _ => true
  | .acqStop _ => true
  | .force _ => true
  | .cal _ => true
  | .fastSample => true
  | .calTimeout => true
  | .intervalEnd _ => true
  | .bandwidthCheck => true
  | .blockWritten => true
  | .uploadRingSet _ addr _ => decide (addr < 2 ^ 40)
  | .heartbeat lane cycle heard sent _ => decide (lane < 2) && decide (cycle < 2 ^ 64) && heard.ok && sent.ok
  | .escrowBegin k epoch => decide (k < 2 ^ 64) && decide (epoch < 2 ^ 32)
  | .escrowLine axis line words => decide (axis < 256) && decide (8 ≤ line) && decide (line < 128) && words.length == 8
  | .escrowTask task st _ => decide (task < 2048) && decide (st < 8)
  | .escrowDelay list entries => decide (list < 8) && entries.all DelayRec.ok
  | .escrowDelta id _ => decide (id < 2 ^ 32)
  | .escrowPort port hops cuts => decide (port < 32) && hops.length == 16 && cuts.length == 16
  | .escrowEnd count => decide (count < 2 ^ 32)
  | .takebackRequest kt => decide (kt < 2 ^ 64)
  | .takebackAck => true
  | .go => true
  | .abandon => true
  | .mirrorDown => true
  | .mirrorUp => true
  | .issueFrameReceive port hdr => decide (port < 32) && hdr.ok
  | .takeoverDecide => true
  | .seekClaim => true
  | .takebackStart => true
  | .takeback _ => true
  | .relinquish _ => true
  | .inhibitSet _ => true
  | .inhibitClr _ => true
  | .clearAll _ => true
  | .dropDone => true
  | .bpDone => true
  | .deviceReset _ _ => true
  | .pllLock => true
  | .waveEnd segs meas => decide (segs.length ≤ 32) && meas.ok
  | .waveTimeLimit segs meas => decide (segs.length ≤ 32) && meas.ok
  | .keysReady => true
  | .jtagInstruction _ => true
  | .listenEnd => true
  | .lastReducedApply => true
  | .fullServiceBegin => true
  | .submit _ => true
  | .strongroomAnswer => true
  | .monitorRead r => r.ok
  | .readNow _ => true
  | .maint _ => true
  | .retuneTrialEnd height width => decide (height < 2 ^ 32) && decide (width < 2 ^ 32)
  | .dailyProjection => true
  | .pmbusVerify readMv reply => decide (readMv < 2 ^ 32) && reply.ok
  | .smbalert => true
  | .exportDaybook _ => true
  | .exportComplete => true
  | .flush _ => true
  | .closeAxis _ => true
  | .daybookHourly => true
  | .thermN _ => true
  | .refclkReturn => true
  | .vbakRestore => true
  | .resetRelease => true
  | .refusedAccess _ _ _ addr _ => decide (addr < 2 ^ 40)
  | .stepPulseEnd pair => decide (pair < 16)
  | .ainConversionDone n _ => decide (n < 8)

/-- The control lane a command works on. -/
def Instr.lane? (i : Instr) : Option Nat :=
  match i with
  | .nop lane _ => some lane
  | .mpy4 lane _ => some lane
  | .mac4 lane _ => some lane
  | .msu4 lane _ => some lane
  | .mpy lane _ => some lane
  | .mac lane _ => some lane
  | .msu lane _ => some lane
  | .adl lane _ => some lane
  | .adda lane _ => some lane
  | .suba lane _ => some lane
  | .nega lane _ => some lane
  | .clra lane _ => some lane
  | .sha lane _ => some lane
  | .lda lane _ => some lane
  | .shae lane _ => some lane
  | .rnd lane _ => some lane
  | .rnde lane _ => some lane
  | .nrnd lane _ => some lane
  | .expa lane _ => some lane
  | .rsc lane _ => some lane
  | .bxclr lane _ => some lane
  | .shlb lane _ => some lane
  | .li lane _ => some lane
  | .mov lane _ => some lane
  | .addn lane _ => some lane
  | .subn lane _ => some lane
  | .andn lane _ => some lane
  | .orn lane _ => some lane
  | .xorn lane _ => some lane
  | .shln lane _ => some lane
  | .sarn lane _ => some lane
  | .adde lane _ => some lane
  | .imul lane _ => some lane
  | .idiv lane _ => some lane
  | .mine lane _ => some lane
  | .pld lane _ => some lane
  | .pst lane _ => some lane
  | .padd lane _ => some lane
  | .psub lane _ => some lane
  | .pext lane _ => some lane
  | .pacc lane _ => some lane
  | .pbf lane _ => some lane
  | .lget lane _ => some lane
  | .lgetu lane _ => some lane
  | .lgetb lane _ => some lane
  | .lgetbu lane _ => some lane
  | .ledgerReadComplete lane => some lane
  | .lput lane _ => some lane
  | .bra lane _ => some lane
  | .call lane _ => some lane
  | .callb lane _ => some lane
  | .ret lane _ => some lane
  | .rep lane _ => some lane
  | .take lane => some lane
  | .done lane => some lane
  | .commitComplete lane => some lane
  | _ => none

/-- The Tabna port a command works on. -/
def Instr.port? (i : Instr) : Option Nat :=
  match i with
  | .returnDue port => some port
  | .issueLaunch port => some port
  | .returnFrame port _ => some port
  | .slotAck port _ _ => some port
  | .paramResp port _ => some port
  | .acqData port _ => some port
  | .discoveryLaunch port => some port
  | .discoveryReply port _ => some port
  | .discoveryReplyLost port => some port
  | .timingComplete port _ => some port
  | .lockTimeout port _ => some port
  | .effectiveReached port _ => some port
  | .stationAbsent port _ => some port
  | .isolateNext port => some port
  | .escrowPort port _ _ => some port
  | .issueFrameReceive port _ => some port
  | _ => none

end Sys2Proof
end

