-- ==== Sys2Proof/Safety.lean ====
section
/-!
DEFINITION. What counts as a safe state, and the terms in which statements are made: a command that runs, memories in canonical form,
register files of their sizes, what survives a device reset, and a lane at an instruction of code RAM.
-/

open Sys2Proof Sys2Proof.Machine

/-- The command answers a next state of which P holds. -/
def Sys2Proof.Machine.Runs (i : Instr) (s : State) (P : State → Prop) : Prop := ∃ t, exec i s = .next t ∧ P t

/-- The calendar seconds that a Daybook record is stamped with: 0 after a loss of VBAK, until software sets them (R424, R429). -/
def Sys2Proof.Machine.State.stampNow (s : State) : Nat := if s.tim.calOk then s.tim.calSec.toNat else 0

/-- The EPOCH records that wait are journalled where the Daybook is ready (R425; log 40). -/
def Sys2Proof.Machine.Dbk.epochsIn (d : Dbk) : Dbk :=
  if d.ready then
    { d.write (d.pending.filter fun r => r.type == 6) with pending := d.pending.filter fun r => r.type != 6 }
  else d

/-- The memories of the device are in canonical form: DRAM, the axis pages, code RAM, the Ledger and each lane's data RAM. -/
def Sys2Proof.Machine.State.memOk (s : State) : Prop :=
  memWf s.dram = true ∧ memWf s.pages = true ∧ memWf s.code = true ∧ memWf s.ledger.mem = true
    ∧ ∀ l ∈ s.lanes, memWf l.ram = true

/-- The register files of a lane have their sizes (R107), and its commit buffer at most 64 lines (R113). -/
def Sys2Proof.Machine.Lane.filesOk (l : Lane) : Prop :=
  l.x.length = 8 ∧ l.y.length = 16 ∧ l.n.length = 16 ∧ l.e.length = 8 ∧ l.p.length = 8 ∧ l.ix.length = 8
    ∧ l.ox.length = 8 ∧ l.iy.length = 8 ∧ l.oy.length = 8 ∧ l.a.length = 4 ∧ l.marks.length ≤ 64

/-- The register files have the sizes that the spec gives them: 16 lanes, 256 axes, 32 ports with 16 positions each, and 512
station numbers. -/
def Sys2Proof.Machine.State.sizesOk (s : State) : Prop :=
  s.lanes.length = 16 ∧ s.axes.length = 256 ∧ s.ports.length = 32 ∧ s.stations.length = 512
    ∧ (∀ q ∈ s.ports, q.pos.length = 16) ∧ ∀ l ∈ s.lanes, l.filesOk

/-- A device reset with a cause (R13, R398): every block takes its reset values but for these. The always-on domain keeps the
calendar, its trim and TIM_PFAIL; the Strongroom keeps JTAG_LOCKOUT, OTP and, until it zeroises it, the key RAM (R401, R402);
flash keeps the journal of the Daybook with its sectors, the settings it holds, the holding block, the firmware and its images; the
axes go on from their open Daybook records; DRAM, the levels at the input pins and PAIRSEL, the queue and the model's count of free
values are not the device's. `held` says whether it stays in reset. -/
def Sys2Proof.Machine.ResetTo (s t : State) (cause : Nat) (held : Bool) : Prop :=
  t = { State.reset with
    pending := s.pending, readData := s.readData, freeCount := s.freeCount, dramMib := s.dramMib, dram := s.dram
    tim := { Tim.reset with
      calSec := s.tim.calSec, calSub := s.tim.calSub, calTrim := s.tim.calTrim, calFrac := s.tim.calFrac
      trimAcc := s.tim.trimAcc, carryDue := s.tim.carryDue, calSet := s.tim.calSet, calOk := s.tim.calOk, pfail := s.tim.pfail, vbak := s.tim.vbak }
    srm := { Srm.reset with
      lockout := s.srm.lockout, keyRam := s.srm.keyRam, slots := s.srm.slots, devId := s.srm.devId, vendorHash := s.srm.vendorHash }
    dbk := t.dbk, io := t.io, axes := t.axes
    par := { Par.reset with unit := s.par.unit }
    bst := { Bst.reset with
      cause := cause, inReset := held, hold := s.bst.hold, rom := s.bst.rom, image := s.bst.image, fwOk := s.bst.fwOk } }
  ∧ t.dbk = { Dbk.reset with
      region := s.dbk.region, erases := s.dbk.erases, epochAo := s.dbk.epochAo, poh := t.dbk.poh, journal := s.dbk.journal
      epoch := s.dbk.epoch, vcore := s.dbk.vcore, derated := s.dbk.derated, brownOuts := s.dbk.brownOuts
      powerCycles := s.dbk.powerCycles, seq := s.dbk.seq, ckptNew := s.dbk.ckptNew, ckptOld := s.dbk.ckptOld
      erased := s.dbk.erased, tjHist := t.dbk.tjHist }
  ∧ t.io = { Local.reset with gpioIn := s.io.gpioIn, fb := t.io.fb, trg := t.io.trg }
  ∧ t.io.fb = s.io.fb.map (fun p => { FbPort.reset with levels := p.levels, pins := p.pins })
  ∧ t.io.trg = s.io.trg.map (fun g => { Trg.reset with level := g.level })
  ∧ t.axes.length = 256
  ∧ ∀ a, t.axis a = { Axis.reset with
      dbkSerial := (t.axis a).dbkSerial, travel := (t.axis a).travel, reversals := (t.axis a).reversals
      energised := (t.axis a).energised, faults := (t.axis a).faults }

/-- A Charter command that is not permitted: no effect but CMD_IGNORED with a code (R74, R409). -/
def Sys2Proof.Machine.State.ignores (s : State) (code : Nat) : State :=
  { s with cht := { s.cht with errCode := code, errDetail := 0, evt := setBit s.cht.evt 7 } }

/-- What the local sample writes into the page of an axis that samples (R155): the pulse count and the AIN code that its commands
name, the records of local ports, the latched position of a local pair, STALE and LOAD_INVALID of stations that hold no slot; every
other word stands. -/
def Sys2Proof.Machine.State.SampledPage (s t : State) (r : AxisRec) : Prop :=
  let a := r.axis
  let own := fun (w : Word) => t.fb (field w 3 0)
  let pair := t.io.step.getD (field r.target 3 0) StepPair.reset
  let slotless := fun (w : Word) => isLocal w = false ∧ ∀ c, s.charter = some c → t.stationSlot c (field w 8 0) = false
  t.page a 0x60 = (own (s.page a 0x1B8)).latCount
    ∧ t.page a 0x64 = (t.io.ainLat.getD (field (s.page a 0x1BC) 2 0) 0).setWidth 32
    ∧ (∀ off, off < 0x1000 → off / 4 ≠ 1 → (off < 0x20 ∨ 0x68 ≤ off) → off / 8 ≠ 0x0E → t.page a off = s.page a off)
    ∧ (isLocal r.target = true → t.page a 0x70 = BitVec.ofInt 32 pair.lat ∧ t.page a 0x74 = BitVec.ofInt 32 (pair.lat / 2 ^ 32)
        ∧ bit (t.page a 4) 0 = false)
    ∧ (isLocal r.target = false → t.page a 0x70 = s.page a 0x70 ∧ t.page a 0x74 = s.page a 0x74)
    ∧ (slotless r.target → bit (t.page a 4) 0 = true)
    ∧ (bit r.loadFb 30 = true → slotless r.loadFb → bit (t.page a 4) 2 = true)
    ∧ (r.mode ≠ 2 ∧ isLocal r.primary = true → ∀ i, i < 8 → t.page a (0x20 + 4 * i) =
        ((own r.primary).record (s.axis a).dirSeen0 (s.axis a).zSeen0 (s.axis a).badSeen0).getD i 0)
    ∧ (r.mode = 2 ∨ isLocal r.primary = false → ∀ i, i < 8 → t.page a (0x20 + 4 * i) = s.page a (0x20 + 4 * i))
    ∧ (bit r.loadFb 30 = true ∧ isLocal r.loadFb = true → ∀ i, i < 8 → t.page a (0x40 + 4 * i) =
        ((own r.loadFb).record (s.axis a).dirSeen1 (s.axis a).zSeen1 (s.axis a).badSeen1).getD i 0)
    ∧ (bit r.loadFb 30 = false ∨ isLocal r.loadFb = false → ∀ i, i < 8 → t.page a (0x40 + 4 * i) = s.page a (0x40 + 4 * i))

/-- The role of the unit does not hang on its links as they are: no pair Charter is active, or a link of the pair stands, the mirror
link or, where they count, a port of the Charter, and the unit is not ISOLATED (R365). -/
def Sys2Proof.Machine.State.roleStands (s : State) (ports : Bool) : Prop :=
  ∀ c, s.cht.active = some c → c.pair = true → (s.par.link || (ports && s.lineUp)) = true ∧ s.par.role ≠ .isolated

/-- What a slot of the return frame that has been judged leaves in the pages of the axes of its station and of the loads that it
carries (R91, R155, R315, R316): of a good slot the words of each axis record, with STALE clear; of any other nothing but STALE and
LOAD_INVALID. -/
def Sys2Proof.Machine.State.SlotTaken (s t : State) (c : Charter) (num : Nat) (r : RetSlot) (v : SlotFate) : Prop :=
  (v = .good → ∀ pre x post, c.returnAxes num s.cyc.k = pre ++ x :: post →
    let ws := r.body.drop (pre.foldl (fun n y => n + returnRecWords y.mode) 0)
    t.page x.axis 0 = ws.getD 0 0 &&& 0xFF07 ∧ bit (t.page x.axis 4) 0 = false
      ∧ (x.mode = 0 → t.page x.axis 8 = ws.getD 1 0 ∧ t.page x.axis 0xC = ws.getD 2 0)
      ∧ (x.mode = 1 → t.page x.axis 0x10 = ws.getD 1 0 &&& 0xFFFF))
  ∧ (v ≠ .good →
    (∀ x ∈ c.returnAxes num s.cyc.k, bit (t.page x.axis 4) 0 = true
      ∧ ∀ off, off < 0x40 → off / 4 ≠ 1 → t.page x.axis off = s.page x.axis off)
    ∧ (∀ x ∈ c.returnLoads num s.cyc.k, bit (t.page x.axis 4) 2 = true
      ∧ ∀ i, i < 8 → t.page x.axis (0x40 + 4 * i) = s.page x.axis (0x40 + 4 * i)))

/-- Lane n issues an instruction at an address of code RAM, where lane code runs on it (R106, R108). -/
def Sys2Proof.Machine.State.atCode (s : State) (n : Nat) : Prop :=
  n < s.lanes.length ∧ (s.lane n).issues = true ∧ (s.lane n).pc < 0x4000 ∧ (s.lane n).filesOk

/-- Lane n is at a format P instruction f whose operation writes the codes `dst`; its moves are legal, write other registers,
and leave the lane b (R129, R130, R133, R135). -/
def Sys2Proof.Machine.State.movesTo (s : State) (n : Nat) (f : PFields) (dst : List Nat) (b : Lane) : Prop :=
  s.atCode n ∧ f.ok = true ∧ (moveOf f.mx).legal = true ∧ (moveOf f.my).legal = true
    ∧ hasDup (dst ++ (moveOf f.mx).loads ++ (moveOf f.my).loads) = false
    ∧ ∃ a, doMove (s.blockTable n) (moveOf f.mx) false (s.lane n) (s.lane n) = .ok a
      ∧ doMove (s.blockTable n) (moveOf f.my) true (s.lane n) a = .ok b

/-- The state in which lane n is l, moved on to its next instruction; all else is as it was. -/
def Sys2Proof.Machine.State.laneGoes (s : State) (n : Nat) (l : Lane) : State := s.mapLane n fun _ => l.next.settle

/-- A lane stalls on a Ledger read `r`: the read joins its requests with its beats, urgent where `wish` or the CLASS record of
the lane ask for it and the lane has urgent beats of the base cycle left, the last read being let past the budget (log 18); the
line of each identifier is looked up in the cache (R140, R291, R297). The lane's registers, its address and all else stay. -/
def Sys2Proof.Machine.State.stalls (s : State) (n : Nat) (wish : Bool) (r : LaneRead) (t : State) : Prop :=
  let l := s.lane n
  let want := wish || (s.arb.reqState n).cls == 0
  let u := want && decide (l.urgentUsed < s.arb.urgentBeats)
  let used := if u then l.urgentUsed + r.beats else l.urgentUsed
  t = { s with
    lanes := (s.mapLane n fun l => { l with stall := some r, got := none, urgentUsed := used }).lanes
    ledger := { s.ledger with
      hits := t.ledger.hits, misses := t.ledger.misses, lines := t.ledger.lines, fills := t.ledger.fills }
    arb := { s.arb with reqs := t.arb.reqs, evt := t.arb.evt } }
  ∧ t.arb.reqs = s.arb.reqs ++ [{ req := n, xfer := .laneRead n, beats := r.beats, urgent := u, eligible := false
                                  restart := false, promoted := false, sampledAt := none, waited := 0 }]
  ∧ t.arb.evt = (if want = true ∧ s.arb.urgentBeats ≤ l.urgentUsed + r.beats then setBit s.arb.evt 3
      else s.arb.evt)

/-- The run of lane n is ended by a fault: its bit of LNE_FAULT is set, its address and its task are kept, and the run ends
without a commit (R142, R272). -/
def Sys2Proof.Machine.State.faults (s : State) (n b : Nat) (t : State) : Prop :=
  let l := s.lane n
  t = (s.mapLane n fun m => { m with
        fault := setBit m.fault b, faultPc := m.pc, faultTask := (l.job.map fun j => j.task).getD 0 }).endRun n
    ∧ t.lane n = { l with
        fault := setBit l.fault b, faultPc := l.pc, faultTask := (l.job.map fun j => j.task).getD 0, job := none, marks := []
        rep := [], ret := [], stall := none, got := none, state := .waiting, waitSince := s.tim.now }
    ∧ t = { s with lanes := t.lanes, teller := t.teller, arb := t.arb } ∧ ∀ m, m ≠ n → t.lane m = s.lane m

/-- What an axis job leaves in the runner state x of its axis, by the page image and the runner state x0 that it starts from.
Feedback: an INVALID record leaves POS_FB, a valid one adds the difference of its counter (R241, R244). EN is 1 only without torque
off, with ENABLE or in reduced service, the target there and ready and the geometry valid (R152, R162). With EN 0 the command follows
the feedback at rest, without offsets (R152, R204). A hold leaves the command, at rest (R198); pulse following adds the pulses by its
ratio, the remainder carried (R165). A drive fault enters torque off (R197); with ENABLE 0 and no cause holding the reaction, its
cause, FE_TRIP and STOP_DONE clear (R200). The following-error timer is 0 without a limit, rises by 1 above it, falls by 1 below it,
stays where supervision is suspended (R195). A start has no offsets; without an occasion they decay as `decayed` says (R204; the
model's fixed point, log 111). -/
def Sys2Proof.Machine.State.jobLeaves (s : State) (n a : Nat) (j : Job) (r : AxisRec) (x : AxisRun) : Prop :=
  let l := s.lane n
  let x0 := (s.axis a).run
  let st := s.station (field r.target 8 0)
  let on : Prop := x0.en = true ∧ x0.holdStart = false
  let invalid : Prop := r.mode ≠ 2 ∧ bit (l.image 0x24) 4 = true
  let fault : Prop := isLocal r.target = false ∧ st.present = true ∧ field (l.image 0) 2 1 ≠ 0
  (x.ran = true ∧ x.outMode = r.mode ∧ x.hand = .none) ∧
  (invalid → x.posFb = x0.posFb) ∧
  (¬invalid → r.mode ≠ 2 → x0.prim.first = false → x0.prim.rebind = false → x0.prim.num = 1 → x0.prim.den = 1 →
    x0.prim.rem = 0 → x.posFb = x0.posFb + BitVec.ofInt 96 ((l.image 0x20 - x0.prim.cLast).toInt * 2 ^ 32)) ∧
  (x.en = true → x.react ≠ 1 ∧ (s.reduced = true ∨ bit (l.cmd 3) 8 = true)
    ∧ (isLocal r.target = true ∨ (st.present = true ∧ st.ready = true ∧ bit (l.image 0) 0 = true))
    ∧ (r.mode = 0 → l.cmd 22 ≠ 0 ∧ 1 ≤ field (l.cmd 23) 7 0 ∧ field (l.cmd 23) 7 0 ≤ 64)) ∧
  (x.en = false → x.posCmd = x.posFb ∧ x.wRef = 0 ∧ x.aRef = 0 ∧ x.plan = none ∧ x.hT = 0 ∧ x.hD = 0 ∧ x.hQ = 0) ∧
  (x.en = true → on → x.react = 3 ∨ (x.react = 0 ∧ s.reduced = true) →
    x.posCmd = x0.posCmd ∧ x.wRef = 0 ∧ x.aRef = 0 ∧ x.plan = none) ∧
  (x.en = true → on → x.react = 0 → s.reduced = false → x0.source = .pulse →
    (if bit (l.cmd 3) 2 then field (l.cmd 3) 1 0 else r.source) = 2 →
    l.cmd 12 = x0.gearNumSeen → l.cmd 13 = x0.gearDenSeen → l.cmd 13 ≠ 0 →
    let acc := x0.pulseRem + (l.image 0x60 - x0.pulseLast).toInt * (l.cmd 12).toInt * 2 ^ 32
    x.posCmd = x0.posCmd + BitVec.ofInt 96 (acc / ((l.cmd 13).toNat : Int)) ∧ x.pulseRem = acc % ((l.cmd 13).toNat : Int)) ∧
  (fault → x.react = 1) ∧
  (s.reduced = false → bit (l.cmd 3) 8 = false → ¬fault → ¬invalid → x0.masterLost = false →
    isLocal r.target = true ∨ st.present = true → x.react = 0 ∧ x.cause = 0 ∧ x.feTrip = false ∧ x.stopDone = false) ∧
  (x.en = true → x0.react = 0 → x.react = 0 →
    let err := (x.posCmd.toInt - (if bit (l.cmd 28) 16 then x.posLoad else x.posFb).toInt).natAbs
    let off : Prop := invalid ∨ bit (l.image 4) 0 = true ∨ (bit (l.cmd 28) 16 = true ∧ bit (l.image 4) 2 = true)
    (l.cmd 27 = 0 → x.feTimer = 0) ∧ (l.cmd 27 ≠ 0 → off → x.feTimer = x0.feTimer) ∧
    (l.cmd 27 ≠ 0 → ¬off → (l.cmd 27).toNat * 2 ^ 24 < err → x.feTimer = min (x0.feTimer + 1) 65535) ∧
    (l.cmd 27 ≠ 0 → ¬off → err ≤ (l.cmd 27).toNat * 2 ^ 24 → x.feTimer = x0.feTimer - 1)) ∧
  (¬on → x.hT = 0 ∧ x.hD = 0 ∧ x.hQ = 0) ∧
  (x.en = true → on → x0.hand = .none → x.source = x0.source →
    let after := fun h => decayed h (j.d * s.period) (hoTau (l.cmd 29))
    x.hT = after x0.hT ∧ x.hD = after x0.hD ∧ x.hQ = after x0.hQ)

/-- What an axis job shows of the runner state x that it leaves. AXIS_STAT has EN, FE_TRIP and REACT_ACTIVE (R162). The output area
has EN in its word 1, and with EN 0 nothing but the brake bit; the frame area has POS_CMD, POS_FB and POS_LOAD; their lines are
marked (R153, R159). In full service the items of the axis are published with the stamp of the job, those that rest on the sample with
STALE as AXIS_STAT has it (R161, R208, R285). -/
def Sys2Proof.Machine.State.jobShows (s : State) (n a : Nat) (j : Job) (x : AxisRun) (t : State) : Prop :=
  let ram := (t.lane n).ram
  let item := fun i => memRead t.ledger.mem (sigId 1 a i)
  let stale := if bit x.stat 1 then 3 else 1
  (x.en = true → bit x.stat 0 = true) ∧ (x.feTrip = true → bit x.stat 13 = true) ∧ (x.react ≠ 0 → bit x.stat 14 = true) ∧
  memReadList ram 0x480 9 = posWords x.posCmd ++ posWords x.posFb ++ posWords x.posLoad ∧
  (x.en = true → bit (memRead ram 0x441) 16 = true) ∧
  (x.en = false → memRead ram 0x440 = 0 ∧ (memRead ram 0x441 = 0 ∨ memRead ram 0x441 = 0x20000)) ∧
  (∀ m ∈ [8, 16, 17], m ∈ (t.lane n).marks) ∧
  (s.reduced = false → memWf s.ledger.mem = true →
    (∀ i, i < 3 → item (0x20 + i) = entry ((posWords x.posCmd).getD i 0) 1 j.stamp
      ∧ item (0x23 + i) = entry ((posWords x.posFb).getD i 0) stale j.stamp
      ∧ item (0x26 + i) = entry ((posWords x.posLoad).getD i 0) stale j.stamp) ∧
    item 0x2D = entry x.stat stale j.stamp ∧
    item 0x2F = entry (memRead ram 0x440) stale j.stamp ∧ item 0x30 = entry (memRead ram 0x441) stale j.stamp ∧
    item 0x37 = entry (BitVec.ofNat 32 (x.react + (if x.stopDone then 4 else 0) + x.cause * 256)) 1 j.stamp)

/-- A transfer that a requester asks for, not yet eligible. -/
def Sys2Proof.Machine.Req.asked (req : Nat) (x : Xfer) (beats : Nat) : Req :=
  { req := req, xfer := x, beats := beats, urgent := false, eligible := false, restart := false, promoted := false
    sampledAt := none, waited := 0 }

/-- A write to an identifier has taken effect: its entry holds e and no other changes, the beat has gone to its line, which the
cache has looked up (R282, R289, R291, R460), and the identifier joins the Escrow of an active unit (R380). -/
def Sys2Proof.Machine.State.wrote (s t : State) (id : Nat) (e : Word64) : Prop :=
  memRead t.ledger.mem id = e ∧ (∀ i, i ≠ id → memRead t.ledger.mem i = memRead s.ledger.mem i)
    ∧ t.ledger = { s.ledger with
        mem := t.ledger.mem, bad := s.ledger.bad.filter fun i => i != id, hits := t.ledger.hits, misses := t.ledger.misses
        lines := t.ledger.lines, fills := t.ledger.fills, wbuf := t.ledger.wbuf }
    ∧ t.par = s.par.dirty id

/-- A local port n goes to q: the repeat outputs of the port follow (R249), a change of direction raises its event (R247), and a
change of its count, and only that, may fire local compare units or leave them behind, with their events (R252). -/
def Sys2Proof.Machine.State.portGoes (s : State) (n : Nat) (q : FbPort) (t : State) : Prop :=
  let p := s.fb n
  let dirEvents : List Event := if q.dirN = p.dirN then [] else [{ kind := 3, index := n, k := 0, gen := s.teller.gen }]
  t = { s with
    io := { s.io with
      fb := s.io.fb.set n q, fbo := s.io.fbo.map fun o => if field o.cfg 3 0 == n then o.follow p q else o
      lcmp := t.io.lcmp, lFired := t.io.lFired, lBehind := t.io.lBehind }
    teller := { s.teller with raised := t.teller.raised } }
  ∧ (∃ more, t.teller.raised = s.teller.raised ++ dirEvents ++ more)
  ∧ (q.count = p.count → t.io.lcmp = s.io.lcmp ∧ t.io.lFired = s.io.lFired ∧ t.io.lBehind = s.io.lBehind
      ∧ t.teller.raised = s.teller.raised ++ dirEvents)

/-- Local compare unit n stands as `c` says with BEHIND as `b` says; where it is set, CMP_LBEHIND and, with EVT_BEHIND 1, an event say so
(R251, R252). -/
def Sys2Proof.Machine.State.localUnit (s : State) (n : Nat) (c : Cmp) (b : Bool) : State :=
  { s with
    io := { s.io with
      lcmp := s.io.lcmp.set n { c with behind := b }, lBehind := if b then setBit s.io.lBehind n else s.io.lBehind }
    teller := if b && bit c.cfg 13 then { s.teller with
      raised := s.teller.raised ++ [{ kind := 5, index := n, k := 0, gen := s.teller.gen }] } else s.teller }

/-- Station compare unit m stands as `c` says with BEHIND as `b` says, likewise (R251, R253). -/
def Sys2Proof.Machine.State.stationUnit (s : State) (m : Nat) (c : Cmp) (b : Bool) : State :=
  { s with
    io := { s.io with
      scmp := s.io.scmp.set m { c with behind := b }, sBehind := if b then setBit s.io.sBehind m else s.io.sBehind }
    teller := if b && bit c.cfg 13 then { s.teller with
      raised := s.teller.raised ++ [{ kind := 5, index := 8 + m, k := 0, gen := s.teller.gen }] } else s.teller }

/-- V of a local unit c is behind the count of its port (R251); the count is valid. -/
def Sys2Proof.Machine.State.isBehind (s : State) (c : Cmp) : Bool :=
  let p := s.fb (field c.cfg 3 0)
  behindOf (field c.cfg 9 8) (p.count - c.val.extractLsb' 0 32).toInt p.dir (s.portIdle (field c.cfg 3 0))

/-- The record stream stands as `a` says, and each of its pieces of 256 B that is whole and not asked for yet is asked for on the
fabric by requester 22, in 8 beats (R354). -/
def Sys2Proof.Machine.State.streams (s : State) (a : Acq) : State :=
  { s with
    acq := { a with issued := max a.issued a.pieces }
    arb := { s.arb with
      reqs := s.arb.reqs ++ (List.range (a.pieces - a.issued)).map fun i => Req.asked 22 (.acqWrite (a.issued + i)) 8 } }

/-- A record stream that differs from that of s by what a sample does to it: the time of the last sample, the channels, and the
detectors of the trigger (R352, R359). -/
def Sys2Proof.Machine.Acq.sampled (a b : Acq) (now : Nat) : Prop :=
  b = { a with fastAt := some now, chan := b.chan, primedUp := b.primedUp, primedDown := b.primedDown }

/-- A CONTROL frame of a transfer sent: its code, 1 request, 2 acknowledgement, 3 GO or 4 ABANDON, and k_t, in a mirror frame of type
0x03 put on the lane whose turn it is (R366, R378; log 54). -/
def Sys2Proof.Machine.Par.control (p : Par) (code kt : Nat) : Par :=
  { p with
    txTurn := (p.txTurn + 1) % 2
    ctlTx := some { mirFrame 3 (BitVec.ofNat 32 code :: twoWords kt) with lane := mirLane p.mir p.txTurn } }

/-- What a unit without a Warrant keeps of a renewal heard of cycle k with an epoch and, of an issue frame, a lease: the epoch and
the highest one, the time, the lease in force from it on (R86), and the cycle as k_r where it has come by t(k + 1) (R372). -/
def Sys2Proof.Machine.State.heard (s : State) (epoch : Nat) (k : Option Nat) (lease : Nat) : Par :=
  let on := match k with
    | some k => !s.par.gridSet || decide ((s.time : Int) ≤ (s.cyc.tk : Int) + ((k + 1 : Nat) - (s.cyc.k : Int)) * (s.period : Int))
    | none => true
  { s.par with
    epoch := epoch, highest := max s.par.highest epoch, renew := if on then max s.par.renew (k.getD 0) else s.par.renew
    heardAt := some s.tim.now, lease := lease, leaseDue := none }

/-- An epoch that a unit may claim: of its parity, odd on the primary, and the smallest such above every epoch seen, in frames, in
the Daybook and in the always-on domain (R369, R425). -/
def Sys2Proof.Machine.State.fresh (s : State) (e : Nat) : Prop :=
  let seen := max s.par.highest (max s.dbk.epoch s.dbk.epochAo)
  seen < e ∧ e ≤ seen + 2 ∧ e % 2 = if s.par.unit then 0 else 1

/-- The Daybook of a unit that claims an epoch: it stands in the always-on domain, while VBAK is present, and waits for the
journal (R425, R434; log 40). -/
def Sys2Proof.Machine.State.claimed (s : State) (e : Nat) : Dbk :=
  { s.dbk with
    epochAo := if s.tim.vbak then e else s.dbk.epochAo
    pending := s.dbk.pending ++
      [{ type := 6, stamp := s.stampNow, content := [BitVec.ofNat 32 e], live := false }] }

/-- The state in which a wave n has left its verdict and what its checks and segments showed (R399, R400, R401, R403, R444): its
signatures, counts and flags, BST_WAVEn, WAVE_DONE, BST_ANA, BST_FAILSEG, BST_SERFAIL after wave 1, the temperature spread after
wave 0, and ZEROISED clear where the key RAM of wave 0 was not zero, where no segment of it has run to its end. -/
def Sys2Proof.Machine.State.waved (s : State) (n : Nat) (segs : List SegResult) (m : WaveMeas) : State :=
  let ran := segsRun n segs m
  let assays := segAssays (s.bst.rom.getD n []) ran
  { s with
    srm := { s.srm with zeroised := s.srm.zeroised && (n != 0 || m.keyRamZero) }
    bst := { s.bst with
      segs := ran
      waves := s.bst.waves.set n (waveVerdict n assays m, m.ms), evt := setBit s.bst.evt 0
      ana := s.bst.ana ||| BitVec.ofNat 32 (anaBits m n), failSeg := (failSegOf n assays).getD s.bst.failSeg
      serFail := if n = 1 then serBits m else s.bst.serFail, tSpread := if n = 0 then tempSpread m % 256 else s.bst.tSpread } }

/-- The ASSAY record of a verdict: the verdict, BST_FAILSEG, BST_ANA and the reset cause, stamped with the calendar (R424). -/
def Sys2Proof.Machine.State.assayOf (s : State) (v : Verdict) : DbkRec :=
  { type := 3, stamp := s.stampNow, live := false
    content := [BitVec.ofNat 32 (verdictCode v), s.bst.failSeg, s.bst.ana, BitVec.ofNat 32 s.bst.cause] }
end

