-- ==== Sys2Proof/Certificates/Slice0/Obligations.lean ====
section
/-!
DEFINITION. The statements for the provers. Each is about `exec` or `step` on any state; its docstring names the rules of spec/
that it states, and any convention of the model that it rests on.
-/

open Sys2Proof Sys2Proof.Machine

/-- With a command at the front of the queue, a step is that command on the rest of the queue (block rule of the model). -/
def Obligations.StepTakesFront : Prop :=
  ∀ (c : Instr) (cs : List Instr) (s : State), s.pending = c :: cs → step s = exec c { s with pending := cs }

/-- With an empty queue a step is one TCLK edge, which is the model's choice (log 3). With the root PLL locked or in holdover
the count of edges and, on a unit that is not a standby, device time advance by one (R36); plant time advances by one plus its
rate, in units of 2^−32 ns (R50); every STEP/DIR pair takes its increment (R228); and nothing changes but the clocks, LNE_BUSY
of the lanes, the local pins, the countdowns of perturbations, the Daybook's seconds, and, where a written local compare unit
takes effect (R252), the events raised. With the PLL stopped the calendar alone may advance. A LOAD whose words are copied
goes on from LOADING to CHECKING with the edge (R74; log 66). When the calendar and the seconds move within an edge is the
model's reading (logs 41, 42). -/
def Obligations.StepIdleTicks : Prop :=
  ∀ s : State, s.pending = [] →
    let copied := { s.cht with stage := if s.cht.stage = .loading then .checking else s.cht.stage }
    ((s.clk.lock || s.clk.holdover) = true →
      ∃ t, step s = .next t
        ∧ t = { s with cht := copied, tim := t.tim, lanes := t.lanes, io := t.io, ptb := t.ptb, dbk := t.dbk, teller := t.teller }
        ∧ t.tim.edges = s.tim.edges + 1
        ∧ (s.par.role ≠ .standby → t.tim.now = s.tim.now + 1)
        ∧ t.tim.plant = s.tim.plant + BitVec.ofInt 96 (2 ^ 32 + s.tim.plantRate.toInt)
        ∧ t.lanes.map (fun l => { l with busy := 0 }) = s.lanes.map (fun l => { l with busy := 0 })
        ∧ t.io.step = s.io.step.map StepPair.tick ∧ t.io.cmpWrites = []
        ∧ t.dbk = { s.dbk with poh := t.dbk.poh, tjHist := t.dbk.tjHist }
        ∧ t.teller = { s.teller with raised := t.teller.raised } ∧ (s.io.cmpWrites = [] → t.teller = s.teller)) ∧
    ((s.clk.lock || s.clk.holdover) = false →
      ∃ t, step s = .next t ∧ t = { s with cht := copied, tim := t.tim } ∧ t.tim.now = s.tim.now ∧ t.tim.edges = s.tim.edges
        ∧ t.tim.plant = s.tim.plant)

/-- No command stops the block: each answers a next state, in every state. That a command for which the state holds no ground
(a reply to no frame, the end of no transfer) answers the state unchanged, and does not stop, is the model's choice (log 1),
as is that instants come as commands without a check of the time (log 2). -/
def Obligations.EveryCommandRuns : Prop :=
  ∀ (i : Instr) (s : State), ∃ t, exec i s = .next t

/-- A command changes nothing of the queue. -/
def Obligations.QueueUntouched : Prop :=
  ∀ (i : Instr) (s t : State), exec i s = .next t → t.pending = s.pending

/-- The memories are in canonical form after reset. The register files have their sizes after reset. -/
def Obligations.ResetInvariants : Prop :=
  (State.reset.memOk) ∧
  (State.reset.sizesOk)

/-- Every step keeps the memories in canonical form. -/
def Obligations.MemoryCanonicalKept : Prop :=
  ∀ s t : State, s.memOk → step s = .next t → t.memOk

/-- Every step keeps the sizes of the register files. -/
def Obligations.SizesKept : Prop :=
  ∀ s t : State, s.sizesOk → step s = .next t → t.sizesOk

/-- The key slots and the device identity in OTP change by no command but the Strongroom's answer, whatever resets (R398,
R402, R413). The order of its checks is log 56. -/
def Obligations.OtpChangesByStrongroomOnly : Prop :=
  ∀ (i : Instr) (s t : State), exec i s = .next t → i ≠ .strongroomAnswer →
    t.srm.slots = s.srm.slots ∧ t.srm.devId = s.srm.devId ∧ t.srm.vendorHash = s.srm.vendorHash

/-- The reference is lost and comes back (R30): REF_LOST, also while the PLL relocks, enters holdover, clears LOCK and sets
CLK_STAT.REF_LOST and its event; the limit of 10 ms sets its event; the return of REFCLK clears REF_LOST while the PLL
relocks; REF_BACK ends holdover with LOCK, its event and a measured offset. That LOCK reads 0 in holdover and that the offset
is a free value are the model's (log 43). Nothing else changes. A write of CLK_DERATE.TARGET asks for a divisor change, the
last write standing (R32; of two writes the spec does not say: log 101); a 0 after a derating by the planner overrides it with
OVERRIDE (R429). With no Charter active and no reduced service the change is made at once, with DERATED and DERATE_DONE (R34);
one that the planner asked for is recorded in the Daybook (R420; that order and record are the model's reading: log 44).
Nothing else changes. -/
def Obligations.ReferenceAndDerating : Prop :=
  (∀ s : State,
     ((s.clk.lock || s.clk.relocking) = true → exec .refLost s = .next { s with clk := { s.clk with
       refLost := true, holdover := true, lock := false, relocking := false, evt := setBit s.clk.evt 0 } }) ∧
     (s.clk.holdover = true → s.clk.refLost = true →
       exec .holdoverLimit s = .next { s with clk := { s.clk with evt := setBit s.clk.evt 2 } } ∧
       exec .refclkReturn s = .next { s with clk := { s.clk with refLost := false, relocking := true } }) ∧
     (s.clk.relocking = true → exec .refBack s = .next { s with
       freeCount := s.freeCount + 1
       clk := { s.clk with lock := true, holdover := false, refLost := false, relocking := false
                           evt := setBit s.clk.evt 1, refOffs := (Config.freeValue s.freeCount).setWidth 16 } })) ∧
  (∀ s : State,
     (∀ (src : Source) (v : Word), exec (.clkDerateWrite src v) s = .next { s with
       clk := { s.clk with derate := v &&& 1, pending := some (bit v 0) }
       age := if s.age.planned = true ∧ bit v 0 = false then
           { s.age with overridden := true, planned := false, evt := setBit s.age.evt 7 } else s.age }) ∧
     (∀ b : Bool, s.clk.pending = some b → s.cht.active = none → s.cyc.service ≠ 1 → exec .derateIdleChange s = .next { s with
       clk := { s.clk with derated := b, pending := none, evt := setBit s.clk.evt 3 }
       dbk := if s.age.planned then { s.dbk with derated := b } else s.dbk }))

/-- The four causes of a device reset (R398): loss of PLL lock outside holdover, from which it starts at once (R31); a
brown-out, after TIM_PFAIL has taken the calendar seconds and the brown-outs are counted (R48, R433); RESET_N low; and a
power-up, which counts a power cycle, clears JTAG_LOCKOUT and finds DRAM empty. In the last three the device stays in reset,
and the last two sample PAIRSEL. What a reset keeps is read from the rules (log 11), with the counts that go on from the
journal (log 93); DRAM found empty at power-up and values that no table gives are the model's choice (logs 9, 10). Leaving
reset (R433): the device is no longer held, an OUTAGE record of the last brown-out and the present calendar is made after a
power-up or a brown-out (R424), stamped 0 after a loss of VBAK until the calendar is set (R429), and nothing else changes. The
lock of the root PLL (R36, R399, R401): LOCK with a measured offset, a free value by the model's choice (log 43), device time
0, the key RAM zeroised with ZEROISED, whose read-back wave 0 judges (log 55), and self-test running in wave 0; nothing else
changes. -/
def Obligations.DeviceResets : Prop :=
  (∀ s : State,
     (s.clk.lock = true → s.clk.holdover = false → Runs .pllLockLoss s fun t => ResetTo s t 3 false) ∧
     (Runs .brownOut s fun t => ResetTo { s with
       tim := { s.tim with pfail := if s.tim.vbak then s.tim.calSec else s.tim.pfail }
       dbk := { s.dbk with brownOuts := s.dbk.brownOuts + 1 } } t 2 true) ∧
     (∀ sel : Bool, Runs (.deviceReset .resetN sel) s fun t => ResetTo { s with par := { s.par with unit := sel } } t 1 true) ∧
     (∀ sel : Bool, Runs (.deviceReset .powerUp sel) s fun t => ResetTo { s with
       par := { s.par with unit := sel }, dram := [], srm := { s.srm with lockout := false }
       dbk := { s.dbk with powerCycles := s.dbk.powerCycles + 1 } } t 0 true)) ∧
  (∀ s : State,
     (s.bst.inReset = true → exec .resetRelease s = .next { s with
       bst := { s.bst with inReset := false }
       dbk := if s.bst.cause = 0 ∨ s.bst.cause = 2 then
           { s.dbk with pending := s.dbk.pending ++ [{ type := 5, stamp := if s.tim.calOk then s.tim.calSec.toNat else 0, live := false
                                                       content := twoWords s.tim.pfail.toNat ++ twoWords s.tim.calSec.toNat }] }
         else s.dbk }) ∧
     (s.bst.inReset = false → s.clk.lock = false → s.clk.holdover = false → exec .pllLock s = .next { s with
       freeCount := s.freeCount + 1
       clk := { s.clk with lock := true, refOffs := (Config.freeValue s.freeCount).setWidth 16 }
       tim := { s.tim with now := 0, edges := 0 }
       srm := { s.srm with zeroised := true, keyRam := none }
       bst := { s.bst with running := true, wave := 0 } }))

/-- TIM_PLANT_RATE is 0 at reset, and a value written is held within ±2,147,484; a plant step waits for the next 1 µs tick, a
second one replacing it; the tick adds it to plant time (R51). Of what else the tick does, the delay lists are in
TasksAndDelays; but for the Teller it changes nothing. -/
def Obligations.PlantStepAndTick : Prop :=
  State.reset.tim.plantRate = 0 ∧ ∀ s : State,
    (∀ (src : Source) (v : Word64), exec (.registerWrite src .w32 0x40020018 v) s = .next { s with
      tim := { s.tim with plantRate := BitVec.ofInt 32 (clamp (-2147484) 2147484 (v.setWidth 32).toInt) } }) ∧
    (∀ (src : Source) (v : Word), exec (.plantStepWrite src v) s = .next { s with tim := { s.tim with plantStep := some v } }) ∧
    (Runs .tick1us s fun t =>
      t = { s with teller := t.teller, tim := { s.tim with
        plantStep := none
        plant := match s.tim.plantStep with
          | some v => s.tim.plant + BitVec.ofInt 96 (v.toInt * 2 ^ 32)
          | none => s.tim.plant } })

/-- The calendar (R44, R45): TIM_CAL_SET_HI asks for a set value with the last TIM_CAL_SET_LO, which the next 32.768 kHz edge
takes, with no sub-second count; a second counts (log 41). The loss of VBAK clears the always-on domain (R13) and sets
DBK_EVT.VBAK_LOST, and until the calendar is set again it counts as not set; its return lets the domain run again (R429,
R434). Nothing else changes. A capture (R47): CAPTURE asks for it and clears DONE; at the next edge the calendar, device time
in the timescale of R37 and whole ns of plant time are latched together and DONE is set; the calendar reads 0 without VBAK
(R434); without a request the edge latches nothing (R47). The next write to TIM_CAP_CTRL clears DONE, with CAPTURE 0 too, and
asks for nothing then. Nothing else changes. The writes are bus writes (log 12). -/
def Obligations.CalendarAndCapture : Prop :=
  (∀ s : State,
     (∀ (src : Source) (hi : Word), s.tim.vbak = true → exec (.calendarSet src hi) s = .next { s with tim := { s.tim with
       calSet := some (BitVec.ofNat 48 ((s.loOf 0x40020038).toNat + field hi 15 0 * 2 ^ 32)) } }) ∧
     (∀ v, s.tim.calSet = some v → exec .calendarSetApply s = .next { s with tim := { s.tim with
       calSec := v, calSub := 0, calFrac := 0, carryDue := false, calSet := none, calOk := true } }) ∧
     (s.tim.vbak = true → s.tim.calSet = none → exec .calendarSecond s = .next { s with tim := { s.tim with
       calSec := s.tim.calSec + 1, calSub := 0, carryDue := false } }) ∧
     exec .vbakLost s = .next { s with
       tim := { s.tim with
         calSec := 0, calSub := 0, calTrim := 0, calFrac := 0, trimAcc := 0, carryDue := false, calSet := none, calOk := false
         pfail := 0, vbak := false }
       dbk := { s.dbk with epochAo := 0, evt := setBit s.dbk.evt 4 } } ∧
     exec .vbakRestore s = .next { s with tim := { s.tim with vbak := true } }) ∧
  (∀ s : State,
     (∀ src : Source, exec (.capture src) s = .next { s with tim := { s.tim with capReq := true, capDone := false } }) ∧
     (s.tim.capReq = true → exec .captureDone s = .next { s with tim := { s.tim with
       capReq := false, capDone := true, capDev := BitVec.ofNat 64 s.time, capPlant := s.tim.plant.extractLsb' 32 64
       capSec := if s.tim.vbak then s.tim.calSec else 0, capSub := if s.tim.vbak then s.tim.calSub else 0 } }) ∧
     (s.tim.capReq = false → exec .captureDone s = .next s) ∧
     (∀ (src : Source) (v : Word64), bit v 0 = false → exec (.registerWrite src .w32 0x40020040 v) s = .next { s with
       tim := { s.tim with capDone := false } }))

/-- LOAD and DISCARD (R74 to R76). In EMPTY, STAGED and REJECTED, a LOAD whose source is not refused copies the words of the
source into the staging bank, leaves the other bank as it is, takes the staged copies of the RWS registers from those in force
(R258), and leaves LOADING, from which a TCLK edge goes on to CHECKING; that step, and that of a source beyond the limit of
R56 one word more than the limit is copied, are the model's choice (log 66). One whose source is refused copies no word and
leaves REJECTED with the code SOURCE. DISCARD of a STAGED or REJECTED Charter empties the staging bank; what STAGED_LOAD and
STAGED_DERATE_SAFE read then is the model's choice (log 103). In any other state either command is ignored, with a code that
the model reads from the table (log 59). The checks of a LOAD end (R75, R78): in STAGED with the Charter that was read, its
key slot, its load, its derate safety and LOADED, or in REJECTED with the code and the offset of the first failure and its
event. STAGED_LOAD is rounded down (log 103). Nothing else changes. -/
def Obligations.CharterStaging : Prop :=
  (∀ (src : Source) (s : State),
     let open_ := s.cht.stage = .empty ∨ s.cht.stage = .staged ∨ s.cht.stage = .rejected
     let other := fun (t : State) => if s.cht.stagingB then t.cht.bankA = s.cht.bankA else t.cht.bankB = s.cht.bankB
     (open_ → s.sourceOk = true → Runs (.load src) s fun t =>
       t = { s with cht := t.cht, axes := t.axes, io := t.io }
         ∧ t.cht = { s.cht with
             stage := .loading, staged := none, pageWrites := [], bankA := t.cht.bankA, bankB := t.cht.bankB }
         ∧ t.cht.stagingBank = ((List.range (min s.cht.srcLen.toNat (maxCharter + 1))).map fun i =>
             s.dramWord (s.cht.src.toNat + 4 * i))
         ∧ other t
         ∧ t.axes = s.axes.map (fun a => { a with cfgSt0 := a.cfg0, cfgSt1 := a.cfg1, ssiSt0 := a.ssi0, ssiSt1 := a.ssi1 })
         ∧ t.io = { s.io with fb := s.io.fb.map fun p => { p with cfgSt := p.cfg } }) ∧
     (open_ → s.sourceOk = false → Runs (.load src) s fun t =>
       t = { s with cht := t.cht }
         ∧ t.cht = { s.cht with
             stage := .rejected, staged := none, pageWrites := [], errCode := 0x13, errDetail := 0, errOffs := 0
             evt := setBit s.cht.evt 1, bankA := t.cht.bankA, bankB := t.cht.bankB }
         ∧ t.cht.stagingBank = [] ∧ other t) ∧
     (s.cht.stage = .staged ∨ s.cht.stage = .rejected → Runs (.discard src) s fun t =>
       t = { s with cht := t.cht }
         ∧ t.cht = { s.cht with
             stage := .empty, staged := none, pageWrites := [], bankA := t.cht.bankA, bankB := t.cht.bankB }
         ∧ t.cht.stagingBank = [] ∧ other t) ∧
     (¬ open_ → exec (.load src) s = .next (s.ignores 0x20)) ∧
     (s.cht.stage ≠ .staged ∧ s.cht.stage ≠ .rejected → exec (.discard src) s = .next (s.ignores 0x20))) ∧
  (∀ s : State, s.cht.stage = .loading ∨ s.cht.stage = .checking →
     exec .loadComplete s = .next { s with cht := match validate s.srm.slots s.dramMib s.cht.stagingBank with
       | .ok c => { s.cht with
           stage := .staged, staged := some c, stagedKey := c.keySlot, stagedLoad := c.loadPermille
           stagedSafe := c.derateSafe, evt := setBit s.cht.evt 0 }
       | .error e => { s.cht with
           stage := .rejected, errCode := e.code, errDetail := 0, errOffs := BitVec.ofNat 32 e.offs
           evt := setBit s.cht.evt 1 } })

/-- ARM of a staged Charter beside an active one (R81, R82). Where no check fails it is ARMED with its event, the axes then
live are noted, the pins begin to load (R291), the new blocks are written to code RAM at their places (log 67; a CALLB as log
95 says), the INIT entries of the table groups that no axis references are written with status 0x01 and stamp 0 (R87), and the
bound stations whose slots change are told of the swap; every other code word, Ledger entry and position keeps its value, and
nothing else changes. Where a check fails it stays STAGED, with ARM_REJECT and the code and detail of the check; the order of
the checks is read from the table, and whether a standby holds the Charter is a free value (log 64). In any other state the
command is ignored (R74; log 59). DISARM (R83): accepted before the clearing point of cycle CHT_SWAP_AT − 128, the Charter is
STAGED again with its event, the pins load no further, and nothing else changes but what is sent to stations and the positions
that had enrolled for the swap, which enrol again (log 90); a bound station stays bound. Later it only sets DISARM_LATE; where
nothing is armed it is ignored (R74). -/
def Obligations.ArmAndDisarm : Prop :=
  (∀ (src : Source) (s : State),
     (∀ old new : Charter, s.cht.stage = .staged → s.cht.active = some old → s.cht.staged = some new →
       (s.armFails old new (!s.asksStandby old || bit s.free 0) = none → Runs (.arm src) s fun t =>
         let cells := s.armCells old new
         t = { s with
             freeCount := s.freeCount + (if s.asksStandby old then 1 else 0)
             cht := { s.cht with
               stage := .armed, armedLive := s.liveAxes, evt := setBit s.cht.evt 2, prepared := s.armPlaces old new }
             code := writeCode s.code new (s.armWritten old new)
             ledger := { s.ledger with
               mem := initInto s.ledger.mem cells, pinLoading := !new.pins.isEmpty
               bad := s.ledger.bad.filter fun id => !cells.any fun e => e.1 == id }
             par := { s.par with dirtyIds := t.par.dirtyIds }, ports := t.ports }
           ∧ (∀ a, (∀ e ∈ s.armWritten old new, ∀ k, new.codes.find? (fun k => k.id == e.2) = some k →
               a < e.1 ∨ e.1 + k.code.length ≤ a) → memRead t.code a = memRead s.code a)
           ∧ (∀ id, (∀ e ∈ cells, e.1 ≠ id) → memRead t.ledger.mem id = memRead s.ledger.mem id)
           ∧ (s.memOk → ∀ e ∈ cells, (∀ x ∈ cells, x.1 = e.1 → x = e) → memRead t.ledger.mem e.1 = entry e.2 1 0)
           ∧ t.ports.map (fun q => { q with pos := [], txq := [] }) = s.ports.map (fun q => { q with pos := [], txq := [] })
           ∧ (s.sizesOk → ∀ p n, p < 32 → 1 ≤ n → n ≤ 16 → (t.port p).at n = match ((s.port p).at n).station with
               | some num =>
                 if ((s.port p).at n).st = .bound ∧ slotChanged old new num = true ∧ (new.slot? num).isSome = true then
                   { (s.port p).at n with effective := s.cht.swapAt.toNat + 1, acked := false, sentAt := s.cyc.k }
                 else (s.port p).at n
               | none => (s.port p).at n)) ∧
       (∀ code detail, s.armFails old new (!s.asksStandby old || bit s.free 0) = some (code, detail) →
         exec (.arm src) s = .next { s with
           freeCount := s.freeCount + (if s.asksStandby old then 1 else 0)
           cht := { s.cht with errCode := code, errDetail := detail, evt := setBit s.cht.evt 5 } })) ∧
     (s.cht.stage ≠ .staged ∨ s.cht.active = none ∨ s.cht.staged = none → exec (.arm src) s = .next (s.ignores 0x20))) ∧
  (∀ (src : Source) (s : State),
     (s.cht.stage = .armed → s.cyc.num + 128 < s.cht.swapAt.toNat → Runs (.disarm src) s fun t =>
       t = { s with cht := t.cht, ledger := t.ledger, ports := t.ports }
         ∧ t.cht = { s.cht with stage := .staged, prepared := [], evt := setBit s.cht.evt 4 }
         ∧ t.ledger = { s.ledger with pinLoading := false }
         ∧ t.ports.map (fun q => { q with pos := [], txq := [], discMsgs := [] })
             = s.ports.map (fun q => { q with pos := [], txq := [], discMsgs := [] })
         ∧ (s.sizesOk → ∀ p n, p < 32 → 1 ≤ n → n ≤ 16 → ((s.port p).at n).st = .bound →
             ((t.port p).at n).st = .bound ∧ ((t.port p).at n).station = ((s.port p).at n).station)) ∧
     (s.cht.stage = .armed → s.cht.swapAt.toNat ≤ s.cyc.num + 128 → exec (.disarm src) s = .next { s with
       cht := { s.cht with evt := setBit s.cht.evt 6 } }) ∧
     (s.cht.stage ≠ .armed → exec (.disarm src) s = .next (s.ignores 0x20)))

/-- START (R409): with the device released, a Charter staged, none active, derate safety where the device is derated (R35) and
PAIR on a secondary, the staged Charter is active, its key slot and derate safety with it, the staging bank EMPTY, and the
Ledger at its base is being cleared with no line held (R87, R287, R290). Out of reduced service the device first waits for
t_S, at most 256 reduced cycles on (R409), otherwise for the Ledger (R411). Without PAIR the unit is SINGLE and holds the
Warrant (R365). Otherwise START is ignored, with DERATE or STATE; that DERATE is answered whatever the release, and STATE only
after it, is the model's reading of the table, and a device that counts as derate-safe without a Charter its reading too (logs
59, 44). -/
def Obligations.StartMakesActive : Prop :=
  ∀ (src : Source) (s : State),
    (∀ c : Charter, s.cht.stage = .staged → s.cht.active = none → s.cht.staged = some c →
      (s.clk.derated = false ∨ s.cht.stagedSafe = true → s.bst.released = true → s.par.unit = false ∨ c.pair = true →
        Runs (.start src) s fun t =>
          t.cht.active = some c ∧ t.cht.staged = none ∧ t.cht.stage = .empty ∧ t.cht.started = true
            ∧ t.cht.activeKey = c.keySlot ∧ t.cht.activeSafe = s.cht.stagedSafe ∧ t.cht.evt = s.cht.evt
            ∧ t.ledger.ready = false ∧ t.ledger.clearing = true ∧ t.ledger.lines = []
            ∧ t.ledger.base = BitVec.ofNat 64 (c.layout.getD 0x810000000)
            ∧ (s.cyc.service = 1 → t.cht.phase = .waitTs ∧ t.cht.tS = (s.tim.now / 250000 + 256) * 250000)
            ∧ (s.cyc.service ≠ 1 → t.cht.phase = .clearing)
            ∧ (c.pair = false → t.par.role = .single ∧ t.par.holds = true ∧ t.par.lease = 8)) ∧
      (s.clk.derated = true → s.cht.stagedSafe = false → exec (.start src) s = .next (s.ignores 0x27)) ∧
      (s.clk.derated = false ∨ s.cht.stagedSafe = true →
        s.bst.released = false ∨ (s.par.unit = true ∧ c.pair = false) → exec (.start src) s = .next (s.ignores 0x20))) ∧
    (s.cht.stage ≠ .staged ∨ s.cht.active.isSome = true ∨ s.cht.staged = none →
      exec (.start src) s = .next (s.ignores 0x20))

/-- LOCAL_SAMPLE at t(k) (R89, R90, R155, R239, R286): the cycle is sampled; every local port takes its latches; the GPIO
levels, AIN codes, trigger firings and STEP/DIR accumulators are latched; the GPIO outputs and enables that wait are driven;
each port awaits its return frame, with the slots of the issue frame sent for it; the axes that sample, and no others, have a
job due, and their pages take the pulse count, the AIN code, the records of local ports and the latched pair of a local
target, while a station without a slot leaves its axis STALE; every other page word stands, and towards the Teller nothing
happens but feedback events. The Charter in force in reduced service is that of log 57. The return-arrival events. 200 ns
after t(k) the latched local items carry the stamp of the cycle (R286) and the event of index 32 is raised with the sample
cycle (R90). RETURN_DUE of a port of the Charter raises that of the port, once in a cycle; where its frame has not come, every
station with a slot in it is marked stale, its axes STALE and the loads that it carries LOAD_INVALID (R91, R155, R285), and no
other word or bit of a page changes. The cycle block of a standby raises neither event (R368). Instants come as commands (log
2). -/
def Obligations.SampleAndReturnEvents : Prop :=
  (∀ (g : Word) (c : Charter) (s : State), s.charter = some c → s.cyc.service ≠ 0 → s.cyc.sampled = false →
     Runs (.localSample g) s fun t =>
       t = { s with cyc := { s.cyc with sampled := true }, io := t.io, ports := t.ports, axes := t.axes, pages := t.pages
                    teller := t.teller }
         ∧ t.ports = s.ports.map (fun p => { p with returned := false, judged := false, retSlots := p.frameSlots s.cyc.k })
         ∧ t.teller = { s.teller with raised := t.teller.raised }
         ∧ (∃ l, t.teller.raised = s.teller.raised ++ l ∧ ∀ e ∈ l, e.kind = 3)
         ∧ t.io = { s.io with
             fb := s.io.fb.map fun p => p.sample s.cyc.tk
             gpioIn := g, gpioLat := g, ainLat := s.io.ain, latTk := s.cyc.tk
             trg := s.io.trg.map fun x => { x with latFirings := x.firings }
             step := t.io.step, gpioOut := s.io.gpioOutR, gpioEn := s.io.gpioEnR }
         ∧ t.io.step.map (fun p => (p.lat, p.acc)) = s.io.step.map (fun p => (p.acc, p.acc))
         ∧ (∀ r ∈ c.axes, c.samples r s.cyc.k = true → r.axis < s.axes.length →
             (t.axis r.axis).jobK = s.cyc.k ∧ (t.axis r.axis).jobDue = true ∧ (t.axis r.axis).inTime = false
               ∧ (t.axis r.axis).began = false)
         ∧ (∀ a, (∀ r ∈ c.axes, r.axis = a → c.samples r s.cyc.k = false) →
             t.axis a = s.axis a ∧ ∀ off, off < 0x1000 → t.page a off = s.page a off)
         ∧ (s.memOk → (c.axes.map fun r => r.axis).Nodup → ∀ r ∈ c.axes, c.samples r s.cyc.k = true → s.SampledPage t r)) ∧
  (∀ s : State,
     let raised := fun (i : Nat) => if s.par.role = .standby then s.teller else
       { s.teller with raised := s.teller.raised ++ [{ kind := 2, index := i, k := s.cyc.k, gen := s.teller.gen }] }
     (s.cyc.service ≠ 0 → s.cyc.sampled = true → exec .localSampleEvent s = .next { s with
       io := { s.io with latStamp := s.cyc.k % 2 ^ 24 }, teller := raised 32 }) ∧
     (∀ (p : Nat) (c : Charter), s.charter = some c → (c.port? p).isSome = true → s.cyc.service ≠ 0 →
       s.cht.phase ≠ .toT0 → s.cyc.sampled = true →
       (p < s.ports.length → (s.port p).returned = false → Runs (.returnDue p) s fun t =>
         t = { s with ports := t.ports, stations := t.stations, pages := t.pages, teller := raised p }
           ∧ (t.port p).returned = true
           ∧ t.ports.map (fun q => { q with returned := false, upReq := [] })
               = s.ports.map (fun q => { q with returned := false, upReq := [] })
           ∧ ((s.port p).judged = true → t.stations = s.stations ∧ t.pages = s.pages)
           ∧ (∀ num, num ∉ (s.port p).retSlots → t.station num = s.station num)
           ∧ ((s.port p).judged = false → (∀ num ∈ (s.port p).retSlots, num < s.stations.length →
               t.station num = { s.station num with stale := true }))
           ∧ (s.memOk →
               ((s.port p).judged = false → ∀ num ∈ (s.port p).retSlots,
                 (∀ r ∈ c.returnAxes num s.cyc.k, bit (t.page r.axis 4) 0 = true)
                   ∧ ∀ r ∈ c.returnLoads num s.cyc.k, bit (t.page r.axis 4) 2 = true)
               ∧ (∀ a off, off < 0x1000 → off / 4 ≠ 1 → t.page a off = s.page a off)
               ∧ (∀ a i, i ≠ 0 → i ≠ 2 → bit (t.page a 4) i = bit (s.page a 4) i)
               ∧ (∀ a, (∀ num ∈ (s.port p).retSlots, (∀ r ∈ c.returnAxes num s.cyc.k, r.axis ≠ a)
                   ∧ ∀ r ∈ c.returnLoads num s.cyc.k, r.axis ≠ a) → t.page a 4 = s.page a 4))) ∧
       ((s.port p).returned = true → exec (.returnDue p) s = .next s)))

/-- The deadline (R89, R98, R101, R102): the cycle is frozen; for each axis whose output the cycle releases, no job is due any
longer, the output words of its page are frozen, or zeros where its output has gone off, and a job that was due and not in
time is counted as an overrun. Cycle number, instants, Charter, ports, pages and pins stay as they are. A unit that runs no
jobs closes none: its axes, lanes, Teller and Ledger stay as they are too (R368). Instants come as commands (log 2); what
becomes of a task whose flags are complete only after the deadline is the model's choice (log 105). That a unit without the
Warrant runs no jobs is log 49. The clearing point of a cycle (R15, R84, R89, R286): the next cycle begins, neither sampled
nor frozen; in full service the cycle number is that of the cycle that ends, in reduced service BST_RSV_CYCLE is; each port
may launch its frames; the GPIO outputs and enables that wait are released; the CLEARING event of the cycle is raised on a
unit that is not a standby. With no swap armed t(k) moves on by the base period and the Charter stays; at the cycle of an
armed swap the staged Charter becomes active in the other bank, with SWAPPED, and the staging bank is EMPTY. The order in
which the effects of one clearing point follow each other is the model's reading (logs 53, 74, 100). -/
def Obligations.DeadlineAndClearingPoint : Prop :=
  (∀ (s : State) (c : Charter), s.charter = some c → s.cyc.service ≠ 0 → s.cyc.sampled = true → s.cyc.frozen = false →
     Runs .deadline s fun t =>
       t.cyc.frozen = true ∧ t.cyc.k = s.cyc.k ∧ t.cyc.tk = s.cyc.tk ∧ t.cyc.num = s.cyc.num ∧ t.cyc.sampled = true
         ∧ t.cht = s.cht ∧ t.ports = s.ports ∧ t.pages = s.pages ∧ t.io = s.io
         ∧ (s.passive = true → t = { s with cyc := { s.cyc with frozen := true }, par := t.par, dbk := t.dbk })
         ∧ (s.passive = false → ∀ r ∈ c.axes, c.closes r s.cyc.k = true → r.axis < s.axes.length →
             (t.axis r.axis).jobDue = false
               ∧ (t.axis r.axis).out0 = (if (s.axis r.axis).outOff then 0 else s.page r.axis 0x100)
               ∧ (t.axis r.axis).out1 = (if (s.axis r.axis).outOff then 0 else s.page r.axis 0x104)
               ∧ ((s.axis r.axis).jobDue = true → (s.axis r.axis).inTime = false →
                   (t.axis r.axis).ovrCount = min ((s.axis r.axis).ovrCount + 1) 65535))) ∧
  (∀ (s : State) (c : Charter), s.charter = some c → s.cht.phase ≠ .toT0 → s.cyc.service ≠ 0 → s.cyc.sampled = true →
     Runs .clearingPoint s fun t =>
       t.cyc.k = s.cyc.k + 1 ∧ t.cyc.sampled = false ∧ t.cyc.frozen = false ∧ t.cyc.service = s.cyc.service
         ∧ (s.cyc.service = 2 → t.cyc.num = s.cyc.k ∧ t.cyc.numValid = true)
         ∧ (s.cyc.service ≠ 2 → t.bst.rsvCycle = BitVec.ofNat 64 s.cyc.k)
         ∧ (∀ q ∈ t.ports, q.launched = false ∧ q.discDone = false ∧ q.pendingDisc = none)
         ∧ t.io.gpioOutR = s.io.gpioOutW ∧ t.io.gpioEnR = s.io.gpioEnW
         ∧ (t.par.role ≠ .standby → t.teller.raised.getLast? = some { kind := 1, index := 0, k := s.cyc.k, gen := t.teller.gen })
         ∧ (s.cht.stage ≠ .armed → t.cyc.tk = s.cyc.tk + s.period ∧ t.cht.active = s.cht.active)
         ∧ (∀ new, s.cyc.service = 2 → s.cht.stage = .armed → s.cht.swapAt.toNat = s.cyc.k → s.cht.staged = some new →
             t.cht.active = some new ∧ t.cht.staged = none ∧ t.cht.stage = .empty
               ∧ t.cht.activeBank = !s.cht.activeBank ∧ t.cht.evt = setBit s.cht.evt 3 ∧ t.cht.activeKey = new.keySlot))

/-- The Ledger becomes ready when clearing and the INIT records are complete (R287). A device outside reduced service then
waits for t(0), the first whole multiple of 250,000 ns at least 1 ms later, with its outputs frozen (R411); in reduced service
with no kept station to wait for, t_S is the first such instant at least 4 ms later, where that is sooner than the latest it
may be (R409). The last reduced apply t_S (R409, R410): t(0) is 500 µs after it, the outputs are frozen, a station that was
kept and did not answer is back in FOUND, a port that the holding block does not name runs at 5 Gbaud, and no station is
waited for any longer. Where the role of the unit stands whatever the ports, nothing else changes but what is sent to stations
(R365). Full service begins at t(0) with cycle 0, every lane enabled, under the active Charter (R410); the holding block
stands written from it with its SHA-256 digest (R405; its layout is log 57), and reduced service, where it ran, has ended with
reason 6 (R410). -/
def Obligations.StartOfService : Prop :=
  (∀ s : State, s.ledger.clearing = true →
     let l := { s.ledger with ready := true, clearing := false }
     (s.cht.phase = .clearing → exec .ledgerReady s = .next { s with
       ledger := l
       cht := { s.cht with phase := .toT0, t0 := (s.tim.now + 1000000 + 249999) / 250000 * 250000 }
       cyc := { s.cyc with sampled := true, frozen := true } }) ∧
     (s.cht.phase = .waitTs → s.cht.keptWait = [] → exec .ledgerReady s = .next { s with
       ledger := l
       cht := { s.cht with tS := min s.cht.tS ((s.tim.now + 4000000 + 249999) / 250000 * 250000) } }) ∧
     (s.cht.phase ≠ .clearing → s.cht.phase ≠ .waitTs ∨ s.cht.keptWait ≠ [] →
       exec .ledgerReady s = .next { s with ledger := l })) ∧
  (∀ s : State, s.cht.phase = .waitTs → s.ledger.ready = true → Runs .lastReducedApply s fun t =>
     t.cht = { s.cht with phase := .toT0, t0 := s.cht.tS + 500000, keptWait := [] }
       ∧ t.cyc = { s.cyc with sampled := true, frozen := true }
       ∧ (s.roleStands false → t = { s with cht := t.cht, cyc := t.cyc, ports := t.ports, stations := t.stations })
       ∧ t.ports.length = s.ports.length
       ∧ (∀ p, p < s.ports.length → (s.bst.holdC.bind fun h => h.port? p) = none → (t.port p).rate = true)
       ∧ (s.roleStands false → s.sizesOk → ∀ p n num, p < 32 → 1 ≤ n → n ≤ 16 → ((s.port p).at n).station = some num → num ∈ s.cht.keptWait →
           ((t.port p).at n).st = .found ∧ ((t.port p).at n).station = none)) ∧
  (∀ (s : State) (c : Charter), s.cht.phase = .toT0 → s.cht.active = some c → Runs .fullServiceBegin s fun t =>
     t.cyc = { s.cyc with service := 2, k := 0, tk := s.cht.t0, sampled := false, frozen := false }
       ∧ t.cht.phase = .running ∧ t.cht.active = some c ∧ t.teller.laneEn = 0xFFFF ∧ t.bst.holdC = none
       ∧ (∃ h, t.bst.hold = some h ∧ h.format = 1 ∧ h.charterId = c.charterId ∧ h.digest = sha256 (bytesOf h.words))
       ∧ (s.cyc.service = 1 → t.bst.rsvRunning = false ∧ t.bst.rsvReason = 6 ∧ t.bst.evt = setBit s.bst.evt 4))

/-- The issue frame of the cycle just cleared, on a port with a PORT record, or in full service on any port with link up, of a
unit that holds the Warrant (R310, R311, R462): it is launched once, ISSUE_LEAD (or L_max) before the apply instant; its
header carries TYPE, REDUCED, PAIR, NSLOT, the cycle, the launch stamp, the apply instant, the period, the epoch, and the
lease with the unit; D(n) stands in every slot, with a skew that a perturbation adds at the position as the primary counts it
(R307, R393); the characters sent are those words with their CRCs (R306). Where no rate change is due and the role stands,
only the port, what is kept of its stations, PAR_EVT.CLAIMED and a LEASE that a swap brought change (R86). That a port of the
Charter launches whether or not its link is up is the model's reading (log 78); room and grants are log 77. The lead-in frame
before t(0) of full service carries CYCLE 0xFFFFFFFF, REDUCED 0, t(0) as its apply instant, the outputs that stand, and no
grant (R410); that it goes also after a START without reduced service is the model's reading (log 78). A unit without the
Warrant launches no frame (R364, R376), nor does a port that has launched its frame, that is stopped, or whose frames a
perturbation drops (R346, R393). -/
def Obligations.IssueFrameLaunched : Prop :=
  (∀ (p : Nat) (s : State) (c : Charter), p < s.ports.length → s.cht.phase ≠ .toT0 → s.charter = some c →
     (c.port? p).isSome = true ∨ ((s.port p).linkUp = true ∧ s.cyc.service ≠ 1) → s.cyc.service ≠ 0 →
     s.cyc.sampled = false → s.cyc.k ≠ 0 → s.par.holds = true →
     (s.port p).launched = false → (s.port p).stopped = false → s.ptb.dropOf p ≠ 3 → Runs (.issueLaunch p) s fun t =>
       let c' := s.frameCharter c
       let at1 := launchTime c' p s.cyc.tk
       let red := s.cyc.service == 1
       let lease := if red || s.par.role == .single then 8 else s.par.leaseDue.getD s.par.lease
       ((s.port p).rateDue = false → s.roleStands true →
           t = { s with ports := t.ports, stations := t.stations, par := t.par }
             ∧ (∀ x, x ≠ p → t.port x = s.port x)
             ∧ t.par = { s.par with
               lease := s.par.leaseDue.getD s.par.lease, leaseDue := none
               evt := if s.par.claimAt = some (s.cyc.k - 1) then setBit s.par.evt 0 else s.par.evt })
         ∧ (t.port p).launched = true ∧ (t.port p).launchUi = 5 * at1
         ∧ ∃ f, (t.port p).frame = some f
             ∧ f.hdr.take 9 =
                 [BitVec.ofNat 32 (1 + flagAt red 8 + flagAt (c'.pair && !red) 9 + f.slots.length * 2 ^ 16)
                  , BitVec.ofNat 32 (s.cyc.k - 1)] ++ twoWords at1 ++
                 [f.hdr.getD 4 0, BitVec.ofNat 32 s.cyc.tk, BitVec.ofNat 32 (if red then 250000 else c'.period)
                  , BitVec.ofNat 32 s.par.epoch, BitVec.ofNat 32 (s.ptb.leaseOf lease + flagAt s.par.unit 8)]
             ∧ (∀ x ∈ f.slots, ∃ e ∈ (s.port p).slotPositions s.cyc.k, e.2.station = some x.station
                 ∧ x.dUi = BitVec.ofInt 32 ((s.port p).delay e.1 + s.ptb.skewOf p (s.primaryPos p e.1)))
             ∧ f.wire.take (4 * f.hdr.length + 2) = withCrc f.hdr) ∧
  (∀ (p : Nat) (s : State) (c : Charter), p < s.ports.length → s.cht.phase = .toT0 → s.cht.active = some c →
     (c.port? p).isSome = true ∨ (s.port p).linkUp = true → s.cyc.frozen = false → s.par.holds = true →
     (s.port p).launched = false → (s.port p).stopped = false → s.ptb.dropOf p ≠ 3 → Runs (.issueLaunch p) s fun t =>
       ((s.port p).rateDue = false → s.roleStands true → t = { s with ports := t.ports, stations := t.stations, par := t.par })
         ∧ (t.port p).launched = true
         ∧ (t.port p).launchUi = 5 * launchTime c p s.cht.t0
         ∧ ∃ f, (t.port p).frame = some f ∧ f.hdr.getD 1 0 = 0xFFFFFFFF ∧ bit (f.hdr.getD 0 0) 8 = false
             ∧ f.hdr.getD 5 0 = BitVec.ofNat 32 s.cht.t0 ∧ ∀ g ∈ f.grant, g = 0) ∧
  (∀ (p : Nat) (s : State),
     s.par.holds = false ∨ (s.port p).launched = true ∨ (s.port p).stopped = true ∨ s.ptb.dropOf p = 3 →
     exec (.issueLaunch p) s = .next s)

/-- A return frame on a port with link up, in a cycle whose return is due (R313, R316): its arrival and length are kept,
invalid code groups are counted (R304), and the port is judged, once in a cycle: a frame that comes when the port has been
judged changes no page, station or axis, and without invalid code groups nothing but that arrival and length. Of a frame
judged without messages or babble, the words of each good slot reach the pages of the axes of its station, and one that is
missing, late or bad writes none but STALE and LOAD_INVALID (R91, R155, R315); where every slot is good, each station that has
one is LOCKED and no longer STALE (R285, R328). Which verdict goes before which is the model's reading (log 75). On a port
without link a frame is not received. -/
def Obligations.ReturnFrameJudged : Prop :=
  ∀ (p : Nat) (f : RetFrame) (s : State), s.sizesOk → p < 32 →
    (∀ c : Charter, (s.port p).linkUp = true → f.due = true → s.charter = some c → s.cht.phase ≠ .toT0 → s.cyc.service ≠ 0 →
      s.cyc.sampled = true → (s.port p).judged = false → (s.port p).rateDue = false → s.roleStands true →
      Runs (.returnFrame p f) s fun t =>
        (t.port p).judged = true ∧ (t.port p).rarrUi = f.rarrUi ∧ (t.port p).lenReturn = f.len
          ∧ (t.port p).symErr = (s.port p).symErr + BitVec.ofNat 32 f.symErrs
          ∧ t.cyc.k = s.cyc.k ∧ t.lanes = s.lanes ∧ t.cht = s.cht ∧ t.code = s.code
          ∧ ((∀ e ∈ s.judgeFrame c p f.slots, e.2.2.2.1.msgs = [] ∧ e.2.2.2.1.babble = false) → s.memOk →
              (c.axes.map fun r => r.axis).Nodup → (s.port p).retSlots.Nodup →
              ∀ e ∈ s.judgeFrame c p f.slots, s.SlotTaken t c e.2.2.1 e.2.2.2.1 e.2.2.2.2)
          ∧ ((∀ e ∈ s.judgeFrame c p f.slots, e.2.2.2.2 = .good ∧ e.2.2.2.1.msgs = [] ∧ e.2.2.2.1.babble = false) →
              ∀ e ∈ s.judgeFrame c p f.slots, e.2.2.1 < 512 →
                (t.station e.2.2.1).stale = false ∧ (t.station e.2.2.1).locked = true)) ∧
    ((s.port p).linkUp = true → f.due = true → (s.port p).judged = true → (s.port p).rateDue = false → s.roleStands true →
      (f.symErrs = 0 → exec (.returnFrame p f) s = .next { s with
        ports := s.ports.modify p fun q => { q with rarrUi := f.rarrUi, lenReturn := f.len } }) ∧
      Runs (.returnFrame p f) s fun t =>
        (t.port p).judged = true ∧ (t.port p).rarrUi = f.rarrUi ∧ (t.port p).lenReturn = f.len
          ∧ (t.port p).symErr = (s.port p).symErr + BitVec.ofNat 32 f.symErrs
          ∧ t.pages = s.pages ∧ t.stations = s.stations ∧ t.axes = s.axes ∧ t.teller = s.teller) ∧
    ((s.port p).linkUp = false → exec (.returnFrame p f) s = .next s)

/-- A receiver becomes aligned and loses alignment (R305): LINK_UP and its event at a port, the mirror lanes likewise; a loss
is also counted as four invalid code groups, which is the model's reading of the rule (log 70); what an SFP module shows is
free (log 98). Alignment of a port that is aligned, and the loss of one that is not, change nothing of that. What role a unit
has then is log 49; a change of the port's rate takes effect with it (log 76), and the delays are counted as log 73 says. -/
def Obligations.LinkAlignAndLoss : Prop :=
  ∀ s : State,
    (∀ p, p < s.ports.length → Runs (.linkAlign (.port p)) s fun t =>
      (t.port p).linkUp = true ∧ t.cyc = s.cyc ∧ t.cht = s.cht ∧ t.pages = s.pages
        ∧ ((s.port p).linkUp = false → (t.port p).evt = setBit (s.port p).evt 1)) ∧
    (∀ p, s.sizesOk → p < 32 →
      ((s.port p).linkUp = true → Runs (.linkLoss (.port p)) s fun t =>
        (t.port p).linkUp = false ∧ (t.port p).evt = setBit (setBit (s.port p).evt 0) 2
          ∧ (t.port p).symErr = (s.port p).symErr + 4 ∧ t.cyc = s.cyc ∧ t.cht = s.cht ∧ t.pages = s.pages) ∧
      ((s.port p).linkUp = false → exec (.linkLoss (.port p)) s = .next s)) ∧
    (∀ l, exec (.linkAlign (.mirror l)) s = .next { s with par := { s.par with mir := putAt s.par.mir l true } }) ∧
    (∀ l, exec (.linkLoss (.mirror l)) s = .next { s with par := { s.par with mir := putAt s.par.mir l false } })

/-- SLOT_ACK of the configuration that a position awaits acknowledges it, and a kept station is waited for no longer (R323,
R409); while DSC_CTRL.RUN is 0 that of a station in CONFIGURING is left (R347). Nothing else changes, but that t_S may be
fixed. When it counts is the model's reading (log 72). PARAM_RESP and ACQ_DATA that name the station of a position, with a
good CRC, are counted in TBP_ACYRX (R319). PARAM_RESP closes the request of its tag and changes nothing else. ACQ_DATA goes to
the upload ring (R362): where the ring has room, the entry with its two head words stands at its place in DRAM, a zero word
ends the ring before it goes on at the start, the head moves on, the writes of the link engine count as transfers of requester
21, and every other byte stands; without room, or with a ring where DRAM takes no write, it is counted in ACQ_UP_DROP with its
event and the head stays; without a ring it is discarded. The message of a station that its position holds, answers to
requests, and the ring's rules are read so (logs 71, 72, 81). Upstream messages that no station may send (R319, R345): one
whose CRC fails is counted with its event and dropped; one of a station number from 0x200 to 0x3FE, or that no position of the
port holds, is an unsolicited message of the port, which is the model's reading (log 71). -/
def Obligations.UpstreamMessages : Prop :=
  (∀ (s : State) (p st eff n : Nat), s.sizesOk → p < 32 → (s.port p).posOf st = some n →
     ((((s.port p).at n).st = .configuring ∧ bit s.dsc.ctrl 0 = true) ∨ ((s.port p).at n).st = .bound →
       eff = ((s.port p).at n).effective → Runs (.slotAck p st eff) s fun t =>
         t = { s with ports := t.ports, cht := t.cht }
           ∧ (t.port p).at n = { (s.port p).at n with acked := true, ackedFor := some eff }
           ∧ t.cht = { s.cht with keptWait := s.cht.keptWait.filter (fun m => m != st), tS := t.cht.tS }) ∧
     (((s.port p).at n).st = .configuring → bit s.dsc.ctrl 0 = false → exec (.slotAck p st eff) s = .next s)) ∧
  (∀ (s : State) (p : Nat) (m : Msg) (n : Nat), s.sizesOk → p < 32 → (s.port p).posOf m.station = some n →
     m.station < 0x200 → m.crcOk = true →
     let ports := s.ports.modify p fun q => { q with acyRx := q.acyRx + BitVec.ofNat 32 (6 + 4 * m.payload.length) }
     let tag := field (m.payload.getD 0 0) 31 24
     (m.kind = 0x12 → (s.station m.station).params.contains tag = true → exec (.paramResp p m) s = .next { s with
       ports := ports
       stations := s.stations.modify m.station fun x => { x with params := x.params.filter fun y => y != tag } }) ∧
     (m.kind = 0x30 → Runs (.acqData p m) s fun t =>
       t = { s with ports := ports, acq := t.acq, dram := t.dram, glb := t.glb, arb := t.arb }
         ∧ t.acq = { s.acq with upHead := t.acq.upHead, upDrop := t.acq.upDrop, evt := t.acq.evt }
         ∧ (field s.acq.upSize 20 0 = 0 → t = { s with ports := ports })
         ∧ (field s.acq.upSize 20 0 ≠ 0 → s.acq.upPlace (m.payload.length + 2) = none →
             t.acq = { s.acq with upDrop := s.acq.upDrop + 1, evt := setBit s.acq.evt 8 } ∧ t.dram = s.dram ∧ t.arb = s.arb)
         ∧ (field s.acq.upSize 20 0 ≠ 0 → s.dramOk s.acq.upBase.toNat (field s.acq.upSize 20 0 * 4096) = false →
             t.acq = { s.acq with upDrop := s.acq.upDrop + 1, evt := setBit s.acq.evt 8 } ∧ t.dram = s.dram ∧ t.arb = s.arb)
         ∧ (∀ off head, field s.acq.upSize 20 0 ≠ 0 → s.acq.upPlace (m.payload.length + 2) = some (off, head) →
             s.dramOk s.acq.upBase.toNat (field s.acq.upSize 20 0 * 4096) = true →
             let base := s.acq.upBase.toNat
             let h := s.acq.upHead.toNat
             let wraps := off = 0 ∧ h ≠ 0 ∧ h < field s.acq.upSize 20 0 * 1024
             let w := [BitVec.ofNat 32 p, msgHead m.station m.kind m.payload.length] ++ m.payload
             t.acq = { s.acq with upHead := BitVec.ofNat 32 head } ∧ t.glb = s.glb
               ∧ t.dram = ((if wraps then s.dramPut (base + 4 * h) [0] else s).dramPut (base + 4 * off) w).dram
               ∧ t.arb = (List.range ((w.length + 63) / 64)).foldl (fun a _ => a.atOnce s.fclk 21) s.arb
               ∧ (∀ a, (a < base + 4 * off ∨ base + 4 * (off + w.length) ≤ a) →
                   (wraps → a < base + 4 * h ∨ base + 4 * h + 4 ≤ a) → memRead t.dram a = memRead s.dram a)))) ∧
  (∀ (s : State) (p : Nat) (m : Msg), s.sizesOk → p < 32 → (s.port p).posOf m.station = none →
     m.kind = 0x12 ∨ m.kind = 0x30 →
     let i : Instr := if m.kind = 0x12 then .paramResp p m else .acqData p m
     let rx := (s.port p).acyRx + BitVec.ofNat 32 (6 + 4 * m.payload.length)
     (m.crcOk = false → exec i s = .next { s with
       ports := s.ports.modify p fun q => { q with acyRx := rx, crcErr := q.crcErr + 1, evt := setBit q.evt 6 } }) ∧
     (m.crcOk = true → 5 < (s.port p).tol.length → Runs i s fun t =>
       (t.port p).acyRx = rx ∧ (t.port p).tol.getD 5 0 = (s.port p).tol.getD 5 0 + 1 ∧ t.cyc = s.cyc ∧ t.stations = s.stations
         ∧ t.pages = s.pages))

/-- A discovery frame after the issue frame of the cycle, where one is due (R329, R332, R333): with room for it and its reply
in the base period it is launched once, 16 characters after the EOF of the issue frame, with the next SEQ, TYPE 0x03 and its
launch stamp in the header; without room it is left out, with NO_ROOM and its event. How the room is counted is the model's
reading (log 77). Discovery replies (R330, R333, R347, R393): one that is lost ends the exchange. A reply to the frame
outstanding, with a good header that echoes its SEQ, ends it too and gives the number of stations found (what its cells do to
a line is read so: log 73); one of another SEQ changes nothing but the count of invalid code groups; while DSC_CTRL.RUN is 0
it only ends the exchange; a header whose CRC fails is counted with its event and the exchange goes on. -/
def Obligations.DiscoveryExchange : Prop :=
  (∀ (p : Nat) (s : State) (c : Charter) (f : IssueFrame), s.sizesOk → p < 32 → s.charter = some c →
     (s.port p).frame = some f → (s.port p).launched = true → (s.port p).discDone = false → s.cht.phase ≠ .toT0 →
     s.bst.linkRun = true → s.discDue p (s.cyc.k - 1) = true → Runs (.discoveryLaunch p) s fun t =>
       let q := s.port p
       let tc := q.tc
       let period := if s.cyc.service = 1 then 250000 else c.period
       let ret := f.rlen.foldl (fun n w => n + 4 * w + 2) returnHeadChars + f.grant.foldl (fun n g => n + 16 * g) 0 + 1
       let ui := q.launchUi + 5 * tc * (q.lenIssue + 16)
       let room := tc * (f.len + 16 + 468) + 32 ≤ period ∧ tc * (ret + 16 + 788) + 32 ≤ period
       t = { s with ports := t.ports, dsc := t.dsc } ∧ (t.port p).discDone = true ∧
         (room → t.dsc = s.dsc ∧ (t.port p).noRoom = false ∧ (t.port p).pendingDisc = some (q.seq + 1)
           ∧ (t.port p).seq = q.seq + 1 ∧ (t.port p).discLaunchUi = ui
           ∧ (t.port p).discHdr = [BitVec.ofNat 32 (3 + ui % 5 * 2 ^ 16), q.seq + 1] ++ twoWords (ui / 5)) ∧
         (¬ room → t.port p = { q with noRoom := true, discDone := true }
           ∧ t.dsc = { s.dsc with evt := setBit s.dsc.evt 6 })) ∧
  (∀ (p : Nat) (s : State), s.sizesOk → p < 32 →
     exec (.discoveryReplyLost p) s = .next { s with ports := s.ports.modify p fun q => { q with pendingDisc := none } } ∧
     (∀ (r : DiscReply) (seq : Word), (s.port p).pendingDisc = some seq → s.ptb.delayOf p = 0 →
       (r.hdrOk = true → seq = r.seq → bit s.dsc.ctrl 0 = true → Runs (.discoveryReply p r) s fun t =>
         (t.port p).pendingDisc = none ∧ (t.port p).found = r.n ∧ (t.port p).stations = r.n ∧ t.cyc.k = s.cyc.k
           ∧ t.lanes = s.lanes ∧ t.code = s.code) ∧
       (r.symErrs = 0 → r.hdrOk = true → seq = r.seq → bit s.dsc.ctrl 0 = false → exec (.discoveryReply p r) s = .next { s with
         ports := s.ports.modify p fun q => { q with pendingDisc := none } }) ∧
       (r.symErrs = 0 → r.hdrOk = true → seq ≠ r.seq → exec (.discoveryReply p r) s = .next s) ∧
       (r.symErrs = 0 → r.hdrOk = false → exec (.discoveryReply p r) s = .next { s with
         ports := s.ports.modify p fun q => { q with crcErr := q.crcErr + 1, evt := setBit q.evt 3 } })))

/-- Steps of enrolment. After 256 timing exchanges ASSIGN is sent from the next discovery frame on (R339). No LOCKED within
1,024 base cycles of the first one leaves the station UNBOUND with reason 7 after RELEASE (R339; when ASSIGN is repeated, and
what RUN 0 does to the count, is log 69). At EFFECTIVE, while DSC_CTRL.RUN is 1, an acknowledged station is BOUND and PRESENT,
with one enrolment more, its event and the BOUND bit (R340); after a third attempt without SLOT_ACK it is UNBOUND with reason
9 after RELEASE (R340). While RUN is 0 it stays as it is (R347). -/
def Obligations.EnrolmentSteps : Prop :=
  ∀ (p n : Nat) (s : State), s.sizesOk → p < 32 → 1 ≤ n → n ≤ 16 →
    (((s.port p).at n).st = .timing → 256 ≤ ((s.port p).at n).exchanges →
      (bit s.dsc.ctrl 0 = true → Runs (.timingComplete p n) s fun t =>
        t = { s with ports := t.ports } ∧ (t.port p).at n = { (s.port p).at n with assign := true }) ∧
      (bit s.dsc.ctrl 0 = false → exec (.timingComplete p n) s = .next s)) ∧
    (bit s.dsc.ctrl 0 = false → exec (.lockTimeout p n) s = .next s) ∧
    (∀ k, ((s.port p).at n).st = .timing → ((s.port p).at n).assignAt = some k → k + 1024 < s.cyc.k → bit s.dsc.ctrl 0 = true →
      Runs (.lockTimeout p n) s fun t => ((t.port p).at n).st = .unbound ∧ ((t.port p).at n).reason = 7
        ∧ ((t.port p).at n).station = none ∧ bit t.dsc.evt 2 = true ∧ t.cyc = s.cyc
        ∧ (∃ m ∈ (t.port p).discMsgs, m.station = n ∧ m.kind = 0x23)) ∧
    (∀ (num : Nat) (c : Charter), ((s.port p).at n).st = .configuring → ((s.port p).at n).station = some num → num < 512 →
      s.charter = some c → ((s.port p).at n).effective ≤ s.cyc.k →
      (bit s.dsc.ctrl 0 = true → ((s.port p).at n).acked = true → Runs (.effectiveReached p n) s fun t =>
        ((t.port p).at n).st = .bound ∧ ((t.port p).at n).reason = 0 ∧ ((t.port p).at n).station = some num
          ∧ (t.station num).present = true ∧ (t.station num).serial = ((s.port p).at n).serial
          ∧ (t.station num).enrolments = (s.station num).enrolments + 1
          ∧ bit t.dsc.evt 0 = true ∧ t.cyc = s.cyc) ∧
      (bit s.dsc.ctrl 0 = true → ((s.port p).at n).acked = false → 3 ≤ ((s.port p).at n).attempts →
        Runs (.effectiveReached p n) s fun t =>
          ((t.port p).at n).st = .unbound ∧ ((t.port p).at n).reason = 9 ∧ ((t.port p).at n).station = none ∧ t.cyc = s.cyc
            ∧ (∃ m ∈ (t.port p).discMsgs, m.station = n ∧ m.kind = 0x23)) ∧
      (bit s.dsc.ctrl 0 = false → exec (.effectiveReached p n) s = .next s))

/-- A bound station whose slot was missing in three sample cycles is absent: its position is ABSENT, PRESENT is cleared, the
cycle number of its leaving is kept, LEFT is set, and an ENROL record waits for the journal (R342, R424); a station whose
third missing slot falls in a clearing point leaves there (log 100). A station with fewer than three missing slots stays as it
is (R342). Every 1,024 base cycles each tolerance counter falls by one, not below 0, and DEGRADED of a code clears where its
counter is then 0 (R345); so do those of a station that stands nowhere (log 70). Babble that has gone on for 64 base cycles
after an isolation isolates the position before it with its event (R346). Nothing else changes. -/
def Obligations.AbsenceAndIsolation : Prop :=
  (∀ (p n num : Nat) (s : State), s.sizesOk → p < 32 → 1 ≤ n → n ≤ 16 → num < 512 → ((s.port p).at n).st = .bound →
     ((s.port p).at n).station = some num → 3 ≤ (s.station num).missing → Runs (.stationAbsent p n) s fun t =>
       (t.port p).at n = Position.reset ∧ (t.station num).present = false
         ∧ (t.station num).lastLeave = BitVec.ofNat 32 s.cycleInHand ∧ bit t.dsc.evt 1 = true
         ∧ (∃ r ∈ t.dbk.pending, r.type = 8) ∧ t.cyc = s.cyc) ∧
  (∀ (p n num : Nat) (s : State), ((s.port p).at n).station = some num → (s.station num).missing < 3 →
     exec (.stationAbsent p n) s = .next s) ∧
  (∀ s : State,
     (s.cyc.service ≠ 0 → s.cyc.k % 1024 = 0 → Runs .toleranceDecay s fun t =>
       t = { s with ports := t.ports, dsc := { s.dsc with parted := t.dsc.parted } }
         ∧ t.ports = s.ports.map (fun q => { q with
             tol := q.tol.map (· - 1)
             pos := q.pos.map fun x => { x with
               tol := x.tol.map (· - 1), degr := x.degr.filter fun c => (x.tol.map (· - 1)).getD (c - 1) 0 != 0 } })) ∧
     (∀ p, s.sizesOk → p < 32 → (s.port p).babble = true → 1 < (s.port p).isolatePos → (s.port p).isolatePos ≤ 16 →
       (s.port p).isolateK + 64 ≤ s.cyc.k → Runs (.isolateNext p) s fun t =>
         t = { s with ports := t.ports, dsc := { s.dsc with evt := setBit s.dsc.evt 5 } }
           ∧ (t.port p).isolatePos = (s.port p).isolatePos - 1 ∧ (t.port p).terminate = (s.port p).isolatePos - 2
           ∧ (t.port p).babble = false
           ∧ (∀ n, (s.port p).isolatePos - 1 ≤ n → n ≤ 16 → ((t.port p).at n).st = .isolated
               ∧ ((t.port p).at n).reason = 10)
           ∧ (∀ n, 1 ≤ n → n < (s.port p).isolatePos - 1 → (t.port p).at n = (s.port p).at n)))

/-- DSC_CMD on the position of DSC_SEL, which counts from the primary's port (R307): RETRY takes an UNBOUND position back to
FOUND (R335); SUSPEND suspends a BOUND one, whose station is then not PRESENT, after RELEASE (R345); UNISOLATE withdraws the
isolation of the port, its TERMINATE and, on an SFP port, TX_DISABLE, and leaves its isolated positions ABSENT (R346). Within
service a command is kept, with the state that it left, to the end of its base cycle, where it acts again if that state has
changed since (R347); that it acts at the write first is the model's reading (log 69). Nothing else changes with RETRY. -/
def Obligations.DiscoveryCommands : Prop :=
  ∀ (src : Source) (s : State), s.sizesOk →
    let p := s.dscSel.1
    let n := s.dscSel.2
    (1 ≤ n → n ≤ 16 →
      (((s.port p).at n).st = .unbound → Runs (.retry src) s fun t =>
        t = { s with ports := t.ports, dsc := { s.dsc with
            cmds := if s.cyc.service = 0 then s.dsc.cmds else s.dsc.cmds ++ [(0, p, n, posCode .found)] } }
          ∧ ((t.port p).at n).st = .found ∧ ((t.port p).at n).station = none
          ∧ ((t.port p).at n).tol = ((s.port p).at n).tol) ∧
      (∀ num, ((s.port p).at n).st = .bound → ((s.port p).at n).station = some num → num < 512 →
        Runs (.stationSuspend src) s fun t =>
          ((t.port p).at n).st = .suspended ∧ (t.station num).present = false ∧ bit t.dsc.evt 1 = true ∧ t.cyc = s.cyc
            ∧ (∃ m ∈ (t.port p).discMsgs, m.station = n ∧ m.kind = 0x23))) ∧
    ((s.port p).isolatePos ≠ 0 → Runs (.unisolate src) s fun t =>
      (t.port p).isolatePos = 0 ∧ (t.port p).terminate = 0 ∧ (t.port p).babble = false ∧ (t.port p).stopped = false
        ∧ (t.port p).ctrl = (if (s.port p).medium then clearBit (s.port p).ctrl 0 else (s.port p).ctrl)
        ∧ (∀ x, 1 ≤ x → x ≤ 16 → ((s.port p).at x).st = .isolated → ((t.port p).at x).st = .absent) ∧ t.cyc = s.cyc)

/-- NOP does its two moves and nothing else (R129, R130), and the lane goes on. A 32-bit load by MX reads the word at the
address and puts it into its register: mode 0 takes IX and leaves IX + OX modulo 2^17 in it, mode 1 takes IX and leaves the
sum with reversed carry, mode 2 takes IX and keeps it, mode 3 takes the sum and keeps IX; the low two address bits are
ignored. A 32-bit store by MY in mode 2 to a line of the axis page that is marked already writes that word of data RAM and no
other. A lane instruction acts where its lane is at it and stalls on nothing (log 15). -/
def Obligations.LaneMoves : Prop :=
  ∀ (n : Nat) (f : PFields) (s : State),
    (∀ b, s.movesTo n f [] b → exec (.nop n f) s = .next (s.laneGoes n b)) ∧
    (∀ m, s.atCode n → f.ok = true → m = moveOf f.mx → m.en = true → m.store = false → m.wide = false → m.rsvd = 0 →
      bit f.my 19 = false → field f.my 3 0 = 0 →
      let l := s.lane n
      let i := (l.ix.getD m.idx 0).toNat
      let o := (l.ox.getD m.ofs 0).toNat
      let sum := (i + o) % 2 ^ 17
      let at' := if m.mode = 3 then sum else i
      let left := if m.mode = 0 then sum else if m.mode = 1 then reverseAdd i o false else i
      exec (.nop n f) s = .next (s.laneGoes n ((l.set (.ix m.idx) left).set (moveReg m.reg)
        (l.load (s.blockTable n) (at' / 4 * 4)).toInt))) ∧
    (∀ m, s.atCode n → f.ok = true → m = moveOf f.my → m.en = true → m.store = true → m.wide = false → m.rsvd = 0 →
      m.mode = 2 → bit f.mx 19 = false → field f.mx 3 0 = 0 →
      ∀ a line, a = (((s.lane n).iy.getD m.idx 0).toNat) / 4 * 4 → writable a = true → lineOf a = some line →
        line ∈ (s.lane n).marks → memWf (s.lane n).ram = true →
      Runs (.nop n f) s fun t => ∃ ram, t = s.laneGoes n { s.lane n with ram := ram }
        ∧ memRead ram (a / 4) = BitVec.ofInt 32 ((s.lane n).get (moveReg m.reg))
        ∧ ∀ i, i ≠ a / 4 → memRead ram i = memRead (s.lane n).ram i)

/-- MPY4, MAC4 and MSU4: X times the four Y registers of a quad, put into, added to or taken from A0 to A3 modulo 2^80 (R111,
R137). All else of the lane is as the parallel moves leave it. A lane instruction acts where its lane is at it (log 15). The
instructions that write one accumulator: MPY, MAC and MSU (SH is 0), ADL and LDA (the source times 2^31, X or Y by the lowest
bit of SH), ADDA and SUBA (the second accumulator named by XS), NEGA, CLRA (all four where XS is 7) and EXPA, which writes the
exponent of an accumulator into an E register (R111, R114, R119, R137). The sums are modulo 2^80; the source selection of LDA
and ADL and the code of the second accumulator are the model's readings (log 6). -/
def Obligations.LaneProducts : Prop :=
  (∀ (n : Nat) (f : PFields) (s : State) (b : Lane), s.movesTo n f [] b → f.ys < 4 →
     let l := s.lane n
     let prod := fun i => l.get (.x f.xs) * l.get (.y (4 * f.ys + i))
     (Runs (.mpy4 n f) s fun t =>
       t = s.laneGoes n { b with a := (List.range 4).map fun i => BitVec.ofInt 80 (prod i) }) ∧
     (Runs (.mac4 n f) s fun t =>
       t = s.laneGoes n { b with a := (List.range 4).map fun i => BitVec.ofInt 80 (l.acc i + prod i) }) ∧
     (Runs (.msu4 n f) s fun t =>
       t = s.laneGoes n { b with a := (List.range 4).map fun i => BitVec.ofInt 80 (l.acc i - prod i) })) ∧
  (∀ (n : Nat) (f : PFields) (s : State) (b : Lane), s.movesTo n f [] b →
     let l := s.lane n
     let goes := fun (v : Int) (t : State) => t = s.laneGoes n { b with a := putAt l.a f.acc (BitVec.ofInt 80 v) }
     let x := l.get (.x f.xs)
     let y := l.get (.y f.ys)
     let src := if f.sh % 2 = 0 then x else y
     (f.sh = 0 → Runs (.mpy n f) s (goes (x * y)) ∧ Runs (.mac n f) s (goes (l.acc f.acc + x * y))
       ∧ Runs (.msu n f) s (goes (l.acc f.acc - x * y))) ∧
     Runs (.adl n f) s (goes (l.acc f.acc + src * 2 ^ 31)) ∧
     Runs (.lda n f) s (goes (src * 2 ^ 31)) ∧
     (f.xs < 4 → Runs (.adda n f) s (goes (l.acc f.acc + l.acc f.xs)) ∧ Runs (.suba n f) s (goes (l.acc f.acc - l.acc f.xs))) ∧
     Runs (.nega n f) s (goes (-l.acc f.acc)) ∧
     (f.xs ≠ 7 → Runs (.clra n f) s (goes 0)) ∧
     (f.xs = 7 → Runs (.clra n f) s fun t => t = s.laneGoes n { b with a := List.replicate 4 0 }) ∧
     (Runs (.expa n f) s fun t => t = s.laneGoes n { b with e := putAt l.e (f.sh % 8) (BitVec.ofInt 32 (exOf (l.acc f.acc))) }))

/-- SHA and SHAE: a shift down truncates towards minus infinity, a shift up keeps 80 bits and sets OVF where a bit is lost
(R117). A shift of SHAE outside −80 to 79 leaves a free value in the accumulator and a free OVF (the model's choice, log 7). A
lane instruction acts where its lane is at it (log 15). The block-exponent instructions: RSC takes the minimum of BXD and the
redundant sign count, BXCLR sets 31, SHLB multiplies a register by 2^BXD, its low 32 bits kept (R118, R120). -/
def Obligations.LaneShiftsAndExponents : Prop :=
  (∀ (n : Nat) (f : PFields) (s : State) (b : Lane), s.movesTo n f [] b →
     let l := s.lane n
     let goes := fun (k : Int) (t : State) => ∃ v : BitVec 80, v = BitVec.ofInt 80 (floorShift (l.acc f.acc) k) ∧
       t = s.laneGoes n { b with a := putAt l.a f.acc v,
                                 lflg := if v.toInt = floorShift (l.acc f.acc) k then l.lflg else setBit l.lflg 1 }
     let e := l.get (.e (f.sh % 8))
     Runs (.sha n f) s (goes (signed 6 f.sh)) ∧
     (-80 ≤ e → e ≤ 79 → Runs (.shae n f) s (goes e)) ∧
     (e < -80 ∨ 79 < e → Runs (.shae n f) s fun t => ∃ (v : BitVec 80) (o : Bool),
       t = (s.laneGoes n { b with a := putAt l.a f.acc v, lflg := if o then setBit l.lflg 1 else l.lflg }).drawn 2)) ∧
  (∀ (n : Nat) (f : PFields) (s : State) (b : Lane),
     let l := s.lane n
     let reg := moveReg (4 * f.xs + f.ys / 4)
     (s.movesTo n f [] b →
       (Runs (.rsc n f) s fun t => t = s.laneGoes n { b with bxd := min l.bxd (rsc (l.get reg)) }) ∧
       (Runs (.bxclr n f) s fun t => t = s.laneGoes n { b with bxd := 31 })) ∧
     (s.movesTo n f [4 * f.xs + f.ys / 4] b → Runs (.shlb n f) s fun t =>
       t = s.laneGoes n (b.set reg (l.get reg * 2 ^ l.bxd))))

/-- RND, RNDE and NRND: the accumulator, rounded by rnd32 with the shift of the instruction, of an E register, or of its own
exponent, goes to the destination; SAT or OVF is raised as R116 says, BXE passes the result to BXD (R120), and NRND saturates
and writes its exponent (R119). A lane instruction acts where its lane is at it (log 15). -/
def Obligations.LaneRounding : Prop :=
  ∀ (n : Nat) (f : PFields) (s : State) (b : Lane), s.movesTo n f [4 * f.xs + f.ys / 4] b →
    let l := s.lane n
    let dst := moveReg (4 * f.xs + f.ys / 4)
    let gives := fun (k : Int) (sat : Bool) =>
      let r := rnd32 (l.acc f.acc) k sat
      { b.set dst r.1 with lflg := r.2.into l.lflg, bxd := if f.ys % 2 = 1 then min l.bxd (rsc r.1) else l.bxd }
    (Runs (.rnd n f) s fun t => t = s.laneGoes n (gives (signed 6 f.sh) f.sat)) ∧
    (Runs (.rnde n f) s fun t => t = s.laneGoes n (gives (l.get (.e (f.sh % 8))) f.sat)) ∧
    (Runs (.nrnd n f) s fun t => t = s.laneGoes n { gives (exOf (l.acc f.acc)) true with
      e := putAt l.e (f.sh % 8) (BitVec.ofInt 32 (exOf (l.acc f.acc))) })

/-- rnd32 (A, s): the integer r nearest to t = A × 2^(s−31), a value halfway going to the even one (R115), is stored to 32
bits (R116). With SAT it is held to ±(2^31 − 1), so that −2^31 is never stored, and SAT is raised where it was held and only
there; without SAT its low 32 bits are kept, as a two's complement number, and OVF is raised where it lies outside −2^31 to
2^31 − 1 and only there. No other flag is raised. -/
def Obligations.RoundingOfRnd32 : Prop :=
  ∀ (a : BitVec 80) (k : Int) (sat : Bool), ∃ r : Int,
    (2 * (r * 2 ^ (k.natAbs + 31) - a.toInt * 2 ^ (k + k.natAbs).toNat).natAbs ≤ 2 ^ (k.natAbs + 31)) ∧
    (2 * (r * 2 ^ (k.natAbs + 31) - a.toInt * 2 ^ (k + k.natAbs).toNat).natAbs = 2 ^ (k.natAbs + 31) → r % 2 = 0) ∧
    (-2147483647 ≤ r → r ≤ 2147483647 → rnd32 a.toInt k sat = (r, LFlags.none)) ∧
    (sat = true → 2147483647 < r → rnd32 a.toInt k sat = (2147483647, { LFlags.none with sat := true })) ∧
    (sat = true → r < -2147483647 → rnd32 a.toInt k sat = (-2147483647, { LFlags.none with sat := true })) ∧
    (sat = false → r = -2147483648 → rnd32 a.toInt k sat = (r, LFlags.none)) ∧
    (sat = false → 2147483647 < r ∨ r < -2147483648 →
      rnd32 a.toInt k sat = ((BitVec.ofInt 32 r).toInt, { LFlags.none with ovf := true }))

/-- The integer instructions of format I with a second operand, an immediate or a register (R134, R137): LI, MOV, ADDN, SUBN,
ANDN, ORN, XORN, SHLN, SARN, MINE and ADDE write their destination with the low bits it has, ADDE held to −128 to 127 with
EXP. A shift count past the register's width shifts everything out (the model's reading, log 8). MOV of an accumulator takes
the 32 bits, or the top 16, that IMM32[1:0] names, extended with zeros (the model's reading, log 19); for the value 3 of that
field, for which the spec names no bits, it takes a free value (log 7). A lane instruction acts where its lane is at it (log
15). IMUL and IDIV on two N registers: the signed 64-bit product in d and d + 1; the quotient and remainder truncated towards
zero, a divisor 0 leaving 0 and raising OVF (R137). A quotient of more than 32 bits is a free value (log 7). -/
def Obligations.LaneIntegers : Prop :=
  (∀ (n : Nat) (f : IFields) (s : State) (d r : Reg) (v : Int), s.atCode n → f.rsvd = 0 → (f.rr = true → f.imm.toNat < 128) →
     regOf f.dst = some d →
     let l := s.lane n
     let goes := fun (w : Int) (t : State) => t = s.laneGoes n (l.set d w)
     Runs (.li n f) s (goes f.imm.toInt) ∧
     (regOf f.src = some r →
       ((∀ i, r ≠ .a i) → Runs (.mov n f) s (goes (l.get r))) ∧
       (∀ i, r = .a i → f.imm.toNat % 4 < 3 →
         Runs (.mov n f) s (goes (((l.acc i % 2 ^ 80) / 2 ^ (32 * (f.imm.toNat % 4))) % 2 ^ 32))) ∧
       (∀ i, r = .a i → f.imm.toNat % 4 = 3 → Runs (.mov n f) s fun t => ∃ w : Int, t = (s.laneGoes n (l.set d w)).drawn 1) ∧
       Runs (.mine n f) s (goes (min (l.get d) (l.get r))) ∧
       (operand2 f l = .ok v →
         Runs (.addn n f) s (goes (l.get r + v)) ∧ Runs (.subn n f) s (goes (l.get r - v)) ∧
         Runs (.andn n f) s (goes (bitOp (· &&& ·) (l.get r) v)) ∧ Runs (.orn n f) s (goes (bitOp (· ||| ·) (l.get r) v)) ∧
         Runs (.xorn n f) s (goes (bitOp (· ^^^ ·) (l.get r) v)) ∧
         Runs (.shln n f) s (goes (l.get r * 2 ^ shiftCount v)) ∧ Runs (.sarn n f) s (goes (l.get r / 2 ^ shiftCount v)) ∧
         (Runs (.adde n f) s fun t => t = s.laneGoes n ((l.set d (clamp (-128) 127 (l.get r + v))).raise
           { LFlags.none with exp := decide (l.get r + v < -128 ∨ 127 < l.get r + v) }))))) ∧
  (∀ (n : Nat) (f : IFields) (s : State) (d r : Nat) (v : Int), s.atCode n → f.rsvd = 0 → (f.rr = true → f.imm.toNat < 128) →
     d < 15 → f.dst = 0x18 + d → r < 16 → f.src = 0x18 + r → operand2 f (s.lane n) = .ok v →
     let l := s.lane n
     let m := signed 32 (lowBits 32 v)
     let p := l.get (.n r) * m
     let num := signed 64 (lowBits 32 (l.get (.n d)) + lowBits 32 (l.get (.n (d + 1))) * 2 ^ 32)
     (Runs (.imul n f) s fun t => t = s.laneGoes n { l with
       n := putAt (putAt l.n d (BitVec.ofInt 32 p)) (d + 1) (BitVec.ofInt 32 (p / 2 ^ 32)) }) ∧
     (m = 0 → Runs (.idiv n f) s fun t => t = s.laneGoes n { l with
       n := putAt (putAt l.n d 0) (d + 1) 0, lflg := setBit l.lflg 1 }) ∧
     (m ≠ 0 → -2147483648 ≤ num.tdiv m → num.tdiv m ≤ 2147483647 → Runs (.idiv n f) s fun t => t = s.laneGoes n { l with
       n := putAt (putAt l.n d (BitVec.ofInt 32 (num.tdiv m))) (d + 1) (BitVec.ofInt 32 (num.tmod m)) }) ∧
     (m ≠ 0 → num.tdiv m < -2147483648 ∨ 2147483647 < num.tdiv m → Runs (.idiv n f) s fun t => ∃ q : Word,
       t = (s.laneGoes n { l with n := putAt (putAt l.n d q) (d + 1) (BitVec.ofInt 32 (num.tmod m)) }).drawn 1))

/-- The position instructions: PADD and PSUB modulo 2^96 with OVF, PEXT extends a counter, PACC adds a scaled mantissa, PBF
takes the difference, held to ±(2^79 − 1) with SAT (R125 to R128); PLD and PST move three words at IX, which advances by 12
(R125). The third register of PEXT, PACC and PBF is the second operand's (the model's reading, log 6). A lane instruction acts
where its lane is at it (log 15); PLD and PST ignore the low address bits (log 95). PACC adds m × 2^(e−31) counts, exactly
where the sum is a multiple of 2^−32 count (R128). -/
def Obligations.LanePositions : Prop :=
  (∀ (n : Nat) (f : IFields) (s : State), s.atCode n → f.rsvd = 0 → (f.rr = true → f.imm.toNat < 128) →
     let l := s.lane n
     (∀ d r, d < 8 → r < 8 → f.dst = 0x30 + d → f.src = 0x30 + r →
       let pd := l.p.getD d 0
       let pr := l.p.getD r 0
       (Runs (.padd n f) s fun t => t = s.laneGoes n { l with
         p := putAt l.p d (pd + pr)
         lflg := if (pd + pr).toInt = pd.toInt + pr.toInt then l.lflg else setBit l.lflg 1 }) ∧
       (Runs (.psub n f) s fun t => t = s.laneGoes n { l with
         p := putAt l.p d (pd - pr)
         lflg := if (pd - pr).toInt = pd.toInt - pr.toInt then l.lflg else setBit l.lflg 1 })) ∧
     (∀ d r m, d < 8 → r < 16 → m < 16 → f.dst = 0x30 + d → f.src = 0x18 + r → f.rr = true → f.imm = BitVec.ofNat 32 (0x18 + m) →
       Runs (.pext n f) s fun t => t = s.laneGoes n { l with
         p := putAt l.p d (l.p.getD d 0 + BitVec.ofInt 96 ((l.n.getD r 0 - l.n.getD m 0).toInt * 2 ^ 32)),
         n := putAt l.n m (l.n.getD r 0) }) ∧
     (∀ d r e, d < 8 → r < 16 → e < 8 → f.dst = 0x30 + d → f.src = 0x18 + r → f.rr = true → f.imm = BitVec.ofNat 32 (0x28 + e) →
       Runs (.pacc n f) s fun t => t = s.laneGoes n { l with
         p := putAt l.p d (posAcc (l.p.getD d 0) (l.get (.n r)) (l.get (.e e))) }) ∧
     (∀ d r m, d < 4 → r < 8 → m < 8 → f.dst = 0x58 + d → f.src = 0x30 + r → f.rr = true → f.imm = BitVec.ofNat 32 (0x30 + m) →
       let v := (l.p.getD r 0).toInt - (l.p.getD m 0).toInt
       Runs (.pbf n f) s fun t => t = s.laneGoes n { l with
         a := putAt l.a d (BitVec.ofInt 80 (clamp (-(2 ^ 79 - 1)) (2 ^ 79 - 1) v)),
         lflg := if v.natAbs < 2 ^ 79 then l.lflg else setBit l.lflg 0 }) ∧
     (∀ d i, d < 8 → i < 8 → f.dst = 0x30 + d → f.src = 0x38 + i →
       let a := (l.ix.getD i 0).toNat / 4 * 4
       let ix' := putAt l.ix i (l.ix.getD i 0 + 12)
       (Runs (.pld n f) s fun t => t = s.laneGoes n { l with
         ix := ix'
         p := putAt l.p d (l.load (s.blockTable n) (a + 8) ++ l.load (s.blockTable n) (a + 4) ++ l.load (s.blockTable n) a) }) ∧
       (∀ m, l.storeWords a [(l.p.getD d 0).extractLsb' 0 32, (l.p.getD d 0).extractLsb' 32 32, (l.p.getD d 0).extractLsb' 64 32]
           = .ok m → Runs (.pst n f) s fun t => t = s.laneGoes n { m with ix := ix' }))) ∧
  (∀ (p : Pos) (m e : Int), -1 ≤ e → posAcc p m e = p + BitVec.ofInt 96 (m * 2 ^ (e + 1).toNat))

/-- Ledger reads of a lane: LGET and LGETU stall the lane with the identifier in Ns and request one beat; LGETB and LGETBU ask
for c entries, (c + 3) div 4 beats, to data RAM at IX (R140); the two with U ask for the urgent class while the budget lasts,
and a request past the budget, or the one that uses the last of it, sets URGENT_SPENT (R297; the model's reading, log 18).
LPUT posts a write with the stamp of the job, which joins the lane's requests, and the lane goes on, while fewer than 8 are
queued (R141); nothing else changes. A lane instruction acts where its lane is at it (log 15); which forms are ILLEGAL is log
16, a ninth write log 17, low address bits log 95. LEDGER_READ_COMPLETE: of LGET, the lane's two N registers take the value
and the status word of the entry; of LGETB, data RAM at IX takes the words of the entries, as `storeWords` writes them, and IX
advances by 8 bytes an entry; the lane goes on (R140). Nothing else changes. -/
def Obligations.LaneLedgerAccess : Prop :=
  (∀ (n : Nat) (f : IFields) (s : State), s.atCode n → f.rsvd = 0 →
     let l := s.lane n
     (∀ d r, d < 15 → r < 16 → f.dst = 0x18 + d → f.src = 0x18 + r → f.rr = false → (l.n.getD r 0).toNat < 2 ^ 25 →
       let rd := LaneRead.single (l.n.getD r 0).toNat d
       Runs (.lget n f) s (s.stalls n false rd) ∧ Runs (.lgetu n f) s (s.stalls n true rd)) ∧
     (∀ i r, i < 8 → r < 16 → f.dst = 0x38 + i → f.src = 0x18 + r → f.rr = false → 1 ≤ f.imm.toNat → f.imm.toNat ≤ 32 →
       (l.n.getD r 0).toNat + f.imm.toNat ≤ 2 ^ 25 → 0x10000 ≤ (l.ix.getD i 0).toNat → (l.ix.getD i 0).toNat < 0x1ff00 →
       let rd := LaneRead.block (l.n.getD r 0).toNat f.imm.toNat i
       Runs (.lgetb n f) s (s.stalls n false rd) ∧ Runs (.lgetbu n f) s (s.stalls n true rd)) ∧
     (∀ r v, v < 15 → r < 16 → f.dst = 0x18 + r → f.src = 0x18 + v → f.rr = false → (l.n.getD r 0).toNat < 2 ^ 25 →
       l.post.length < 8 →
       let p : Post := { id := (l.n.getD r 0).toNat, value := l.n.getD v 0, status := (l.n.getD (v + 1) 0).toNat % 256
                         stamp := (l.job.map fun j => j.stamp).getD 0 }
       let q : Req := { req := n, xfer := .lanePost n, beats := 1, urgent := false, eligible := false, restart := false
                        promoted := false, sampledAt := none, waited := 0 }
       exec (.lput n f) s = .next { (s.mapLane n fun m => ({ m with post := m.post ++ [p] }).next) with
         arb := { s.arb with reqs := s.arb.reqs ++ [q] } })) ∧
  (∀ (n : Nat) (s : State), n < s.lanes.length →
     (∀ (id d : Nat) (e : Word64), (s.lane n).stall = some (.single id d) → (s.lane n).got = some [e] →
       exec (.ledgerReadComplete n) s = .next (s.mapLane n fun l =>
         { ({ l with n := putAt (putAt l.n d (e.extractLsb' 0 32)) (d + 1) (e.extractLsb' 32 32) }.next) with
           stall := none, got := none })) ∧
     (∀ (id c i : Nat) (es : List Word64) (m : Lane), (s.lane n).stall = some (.block id c i) → (s.lane n).got = some es →
       (s.lane n).storeWords (((s.lane n).ix.getD i 0).toNat / 8 * 8)
         (es.flatMap fun e => [e.extractLsb' 0 32, e.extractLsb' 32 32]) = .ok m →
       exec (.ledgerReadComplete n) s = .next (s.mapLane n fun l =>
         { (m.set (.ix i) ((l.ix.getD i 0).toNat + 8 * c)).next with stall := none, got := none })))

/-- Branches, calls and repeats. A branch whose condition holds (always, N zero, not zero, negative, not negative, SAT) goes
to TARGET, and the innermost repeat level is popped where TARGET lies outside its body; one whose condition fails goes on
(R132, R136). CALL and CALLB push the return address and the repeat depth, CALLB going to the block of its ID (R138, R145);
RET pops them and goes on past the call; the RET to the return address 0x4000 of an entry block goes back to the chain runner,
which finds the job's blocks run and N15 returned (R147, R148), as does a RET with no return address left. REP pushes a level
with the count of IMM16 or of an N register, or skips the body for a count of 0 (R131). Nothing else changes. A lane
instruction acts where its lane is at it (log 15). -/
def Obligations.LaneControlFlow : Prop :=
  ∀ (n : Nat) (f : CFields) (s : State), s.atCode n → f.ok = true → f.rsvd = 0 →
    let l := s.lane n
    let goes := fun (i : Instr) (l' : Lane) => exec i s = .next (s.mapLane n fun _ => l')
    (∀ v : Word, (1 ≤ f.cond → f.cond ≤ 4 → ∃ i < 16, f.reg = 0x18 + i ∧ v = l.n.getD i 0) →
      let holds : Prop := (f.cond = 0) ∨ (f.cond = 1 ∧ v = 0) ∨ (f.cond = 2 ∧ v ≠ 0) ∨ (f.cond = 3 ∧ v.toInt < 0)
        ∨ (f.cond = 4 ∧ 0 ≤ v.toInt) ∨ (f.cond = 5 ∧ bit l.lflg 0 = true)
      (holds → inRom f.target = false → goes (.bra n f) { l with
        pc := f.target
        rep := match l.rep with
          | r :: rs => if r.first ≤ f.target ∧ f.target ≤ r.last then r :: rs else rs
          | [] => [] }) ∧
      (¬holds → f.cond ≤ 5 → exec (.bra n f) s = .next (s.laneGoes n l))) ∧
    (inRom f.target = false → l.ret.length < 8 →
      goes (.call n f) { l with pc := f.target, ret := { addr := l.pc + 1, depth := l.rep.length } :: l.ret }) ∧
    (∀ addr id, (s.blockTable n).find? (fun e => e.2 == f.imm16) = some (addr, id) → addr < 0x4000 → l.ret.length < 8 →
      goes (.callb n f) { l with pc := addr, ret := { addr := l.pc + 1, depth := l.rep.length } :: l.ret }) ∧
    (∀ r rs, l.ret = r :: rs → l.rep.length = r.depth → 1 ≤ r.addr → r.addr < 0x4000 →
      goes (.ret n f) ({ l with ret := rs }.seqFrom (r.addr - 1)).settle) ∧
    (∀ r rs, l.ret = r :: rs → l.rep.length = r.depth → r.addr = 0x4000 →
      goes (.ret n f) { l with
        pc := 0x4000
        ret := rs
        job := if rs.isEmpty then l.job.map fun j => { j with phase := .finished, n15 := l.n.getD 15 0 } else l.job }) ∧
    (l.ret = [] → goes (.ret n f) { l with
      pc := 0x4000, job := l.job.map fun j => { j with phase := .finished, n15 := l.n.getD 15 0 } }) ∧
    (∀ c : Nat, (f.reg = 0x7F ∧ c = f.imm16) ∨ (∃ i, i < 16 ∧ f.reg = 0x18 + i ∧ c = (l.n.getD i 0).toNat) →
      l.pc < f.target →
      (c ≠ 0 → l.rep.length < 4 →
        goes (.rep n f) { l with pc := l.pc + 1, rep := { first := l.pc + 1, last := f.target, left := c } :: l.rep }.settle) ∧
      (c = 0 → goes (.rep n f) (l.seqFrom f.target).settle))

/-- An instruction that faults ends its job: the bit of LNE_FAULT, the address and the task are kept, the lane waits in TAKE,
its commit buffer is emptied without a commit, and pages and Ledger are as they were (R142, R272). Of formats I and C, every
instruction with a reserved bit set is ILLEGAL (R133); so are a move with a reserved bit, SH other than 0 in MPY, MAC and MSU,
and LGETB and LGETBU with a count outside 1 to 32; a ninth call is CALL_OVERFLOW, a fifth repeat level REP_OVERFLOW, a return
at another repeat depth REP_UNBALANCED (R132); a branch or call into lane ROM, and flow into it, is PRIV (R108); a signal
identifier of more than 25 bits in LGET, LGETU and LPUT SIGNAL_INVALID (R140, R141). That RR = 1 in LGETB is ILLEGAL is the
model's choice (log 95). Faults of forms that the table leaves open are logs 15 and 16. -/
def Obligations.LaneFaults : Prop :=
  ∀ (n : Nat) (s : State), n < s.lanes.length → (s.lane n).issues = true →
    let l := s.lane n
    (l.pc < 0x4000 →
      (∀ f : IFields, f.rsvd ≠ 0 →
        ∀ i ∈ [Instr.li n f, .mov n f, .addn n f, .subn n f, .andn n f, .orn n f, .xorn n f, .shln n f, .sarn n f, .adde n f,
            .imul n f, .idiv n f, .mine n f, .pld n f, .pst n f, .padd n f, .psub n f, .pext n f, .pacc n f, .pbf n f, .lget n f,
            .lgetu n f, .lgetb n f, .lgetbu n f, .lput n f], Runs i s (s.faults n 0)) ∧
      (∀ f : CFields, f.rsvd ≠ 0 →
        ∀ i ∈ [Instr.bra n f, .call n f, .callb n f, .ret n f, .rep n f], Runs i s (s.faults n 0)) ∧
      (∀ f : PFields, field f.mx 3 0 ≠ 0 ∨ field f.my 3 0 ≠ 0 →
        ∀ i ∈ [Instr.nop n f, .mpy4 n f, .mac4 n f, .msu4 n f, .mpy n f, .mac n f, .msu n f, .adl n f, .adda n f, .suba n f,
            .nega n f, .clra n f, .sha n f, .lda n f, .shae n f, .rnd n f, .rnde n f, .nrnd n f, .expa n f, .rsc n f, .bxclr n f,
            .shlb n f], Runs i s (s.faults n 0)) ∧
      (∀ f : PFields, f.sh ≠ 0 → ∀ i ∈ [Instr.mpy n f, .mac n f, .msu n f], Runs i s (s.faults n 0)) ∧
      (∀ f : IFields, f.rr = true ∨ f.imm = 0 ∨ 32 < f.imm.toNat →
        (∃ i < 8, f.dst = 0x38 + i) → (∃ i < 16, f.src = 0x18 + i) →
        ∀ i ∈ [Instr.lgetb n f, .lgetbu n f], Runs i s (s.faults n 0)) ∧
      (∀ (f : IFields) (d r : Nat), f.rsvd = 0 → f.rr = false → d < 15 → r < 16 → f.dst = 0x18 + d → f.src = 0x18 + r →
        2 ^ 25 ≤ (l.n.getD r 0).toNat → ∀ i ∈ [Instr.lget n f, .lgetu n f], Runs i s (s.faults n 5)) ∧
      (∀ (f : IFields) (r v : Nat), f.rsvd = 0 → f.rr = false → v < 15 → r < 16 → f.dst = 0x18 + r → f.src = 0x18 + v →
        2 ^ 25 ≤ (l.n.getD r 0).toNat → Runs (.lput n f) s (s.faults n 5)) ∧
      (∀ f : CFields, f.rsvd = 0 → f.target < 0x4000 → 8 ≤ l.ret.length → Runs (.call n f) s (s.faults n 1)) ∧
      (∀ f : CFields, f.rsvd = 0 → f.reg = 0x7F → f.imm16 ≠ 0 → l.pc < f.target → 4 ≤ l.rep.length →
        Runs (.rep n f) s (s.faults n 2)) ∧
      (∀ (f : CFields) (r : RetLevel) (rs : List RetLevel), f.rsvd = 0 → l.ret = r :: rs → l.rep.length ≠ r.depth →
        Runs (.ret n f) s (s.faults n 3)) ∧
      (∀ f : CFields, f.rsvd = 0 → 0x4000 ≤ f.target → f.target < 0x4400 →
        Runs (.call n f) s (s.faults n 6) ∧ (f.cond = 0 → Runs (.bra n f) s (s.faults n 6)))) ∧
    (0x4000 ≤ l.pc → l.pc < 0x4400 → ∀ f : PFields, Runs (.nop n f) s (s.faults n 6))

/-- TAKE of a task without a cycle axis enters its entry block: scratch and the registers hold free values (R109, R138), LFLG
and the repeat stack are clear, the commit buffer is empty, the one return address leads to the chain runner, N0 is all ones,
N1 is 0, the stamp stands in N2 and the divisor in N3, and the index registers at block entry point to the constants of the
runner and to scratch (R139, R147; log 88); nothing else changes but the count of free values. TAKE of an axis job under
back-pressure of its lane, in full service, stalls the job with nothing run (R396; log 82). Otherwise the job is run at once
(the model's choice, log 22): one that comes to its end with no block's N15 returned has left its runner state beside the one
it began with, as `jobLeaves` says, and its outputs, frame area and items as `jobShows` says (R151). Whatever it comes to, the
axis pages, the Charter, code RAM, DRAM and the other lanes are as they were: only DONE commits (R99). The free values are log
20, causes and timers at an entry log 106. -/
def Obligations.TakeEntersBlock : Prop :=
  ∀ (n : Nat) (s : State) (j : Job), n < s.lanes.length → (s.lane n).filesOk → (s.lane n).job = some j → j.phase = .handed →
    (∀ k addr, j.axis = none → s.teller.task? j.task = some k → j.placed.find? (fun e => e.2 == k.entry) = some (addr, k.entry) →
      Runs (.take n) s fun t =>
        t = { s.mapLane n (fun _ => t.lane n) with freeCount := s.freeCount + 16489 }
          ∧ t.lane n = { s.lane n with
              x := (t.lane n).x, y := (t.lane n).y, n := (t.lane n).n, e := (t.lane n).e, p := (t.lane n).p
              ix := (t.lane n).ix, ox := (t.lane n).ox, iy := (t.lane n).iy, oy := (t.lane n).oy, a := (t.lane n).a
              bxd := (t.lane n).bxd, lflg := 0, pc := addr, ram := (s.lane n).ram.filter fun c => c.1 < 0x4000
              scratch := some s.freeCount, marks := [], rep := [], ret := [{ addr := 0x4000, depth := 0 }]
              job := some { j with phase := .code } }
          ∧ (t.lane n).n.take 4 = [0xFFFFFFFF, 0, BitVec.ofNat 32 j.stamp, BitVec.ofNat 32 j.d]
          ∧ (t.lane n).ix.take 2 = [0x2040, 0x2040] ∧ (t.lane n).iy.take 2 = [0x2040, 0x10000]) ∧
    (∀ a, j.axis = some a → Runs (.take n) s fun t => t.pages = s.pages ∧ t.cht = s.cht ∧ t.code = s.code ∧ t.dram = s.dram
      ∧ t.lanes.length = s.lanes.length ∧ ∀ m, m ≠ n → t.lane m = s.lane m) ∧
    (∀ a, j.axis = some a → s.ptb.holds n = true → s.reduced = false →
      exec (.take n) s = .next { s with
        lanes := (s.mapLane n fun l => { l with
          ram := l.ram.filter fun c => c.1 < 0x4000
          scratch := some s.freeCount, lflg := 0, rep := [], ret := [], marks := []
          job := some { j with phase := .stalled } }).lanes
        freeCount := s.freeCount + 16384
        ptb := { s.ptb with bpWait := false } }) ∧
    (∀ a c r, j.axis = some a → a < 256 → s.charter = some c → c.axis? a = some r → r.source < 4 → memWf (s.lane n).ram = true →
      s.ptb.holds n = false ∨ s.reduced = true →
      Runs (.take n) s fun t => ∀ j' x, (t.lane n).job = some j' → j'.phase = .finished → j'.next = some x →
        j' = { j with phase := .finished, next := some x, base := some (s.axis a).run, n15 := 0 } ∧
          s.jobLeaves n a j r x ∧ s.jobShows n a j x t)

/-- DONE of a finished job before its deadline begins its commit: the words of the marked lines go to the axis page in one
step and no other word of any page changes; the lane counts the job, LFLG joins LNE_ARITH and it commits (R99, R139, R142,
R143). Of an axis job the runner state that it leaves stands from then on, merged with what came about while it ran, the
Daybook counts follow (R424), a job of the present sample cycle was in time, its consecutive overruns are over (R101),
CYC_SLACK_MIN keeps the least time to the deadline, and the lines join the Escrow of an active unit (R380). Nothing else
changes. That a job takes its results into effect here is log 22, CYC_SLACK_MIN of a DONE log 88. COMMIT_COMPLETE ends the
run: the lane waits in TAKE with no job, the flow is free, the task waits, or becomes ready again at once where its flags
satisfy its mask, its read requests are gone, and TASK_DONE is raised (R262, R263, R272). Nothing else changes. -/
def Obligations.DoneCommitsAndEnds : Prop :=
  (∀ (n : Nat) (s : State) (j : Job), n < s.lanes.length → (s.lane n).job = some j → j.phase = .finished →
     (s.lane n).state = .running ∨ (s.lane n).state = .holding → s.cht.outgoing = none → s.doneLate j = false →
     memWf s.pages = true → (∀ m ∈ (s.lane n).marks, m < 128) →
     let l := s.lane n
     let done : Lane := { l with state := .committing, jobs := l.jobs + 1, arith := l.arith ||| l.lflg }
     (j.axis = none → exec (.done n) s = .next (s.mapLane n fun _ => done)) ∧
     (∀ a, j.axis = some a → a < 256 → s.axes.length = 256 → Runs (.done n) s fun t =>
       t = { s with
           lanes := (s.mapLane n fun _ => done).lanes, pages := t.pages, axes := t.axes
           par := s.par.dirtyPage a l.marks
           cyc := { s.cyc with slackMin := BitVec.ofNat 32 (min s.cyc.slackMin.toNat (s.jobDeadline j - s.time)) } }
         ∧ (∀ b w, b < 256 → w < 1024 → memRead t.pages (1024 * b + w) =
             if b = a ∧ w / 8 ∈ l.marks then memRead l.ram (0x400 + w) else memRead s.pages (1024 * b + w))
         ∧ (∀ b, b ≠ a → t.axis b = s.axis b)
         ∧ (∀ nx base, j.next = some nx → j.base = some base →
             let x := { (s.axis a).dayCount nx base (bit (l.image 0x24) 3) with run := nx.merge base (s.axis a).run }
             t.axis a = if (s.axis a).jobK = j.k then { x with inTime := true, ovrConsec := 0, outOff := false } else x))) ∧
  (∀ (n : Nat) (s : State) (j : Job), n < s.lanes.length → (s.lane n).state = .committing → (s.lane n).job = some j →
     Runs (.commitComplete n) s fun t =>
       t = { s.mapLane n (fun l => { l with
             job := none, marks := [], rep := [], ret := [], stall := none, got := none, state := .waiting
             waitSince := s.tim.now }) with
           teller := t.teller
           arb := { s.arb with reqs := s.arb.reqs.filter fun r => r.xfer != Xfer.laneRead n } }
         ∧ t.teller.flows = s.teller.flows.filter (fun f => f != j.flow)
         ∧ t.teller.raised = s.teller.raised ++ [{ kind := 0x0B, index := j.task, k := 0, gen := s.teller.gen }]
         ∧ t.teller = { s.teller with
             flows := t.teller.flows, raised := t.teller.raised, tasks := t.teller.tasks, ready := t.teller.ready }
         ∧ (∀ k, s.teller.task? j.task = some k → k.changed = false →
             { t.teller with raised := [] } = ({ s.teller with
               flows := t.teller.flows, raised := []
               tasks := s.teller.tasks.map fun k => if k.num == j.task then
                 { k with running := false, st := if k.st = .suspended then .suspended else .waiting } else k
               : Teller }).checkReady j.task))

/-- HAND_OFF: the chosen task goes to the lane that has waited longest, with the sample cycle or the dispatch stamp, the
divisor and the block table; it claims its flow, hands the flags of its mask to the lane while they are cleared in the task,
leaves its ready list, and is in service; an axis job gets its page as it stands (R112, R139, R262, R267, R268, R145).
TLR_LAT_MAX keeps the longest time from the arrival to the hand-off, in CCLK cycles (R280). Without dispatch jitter nothing
else changes. A task whose deadline has come is not chosen (R101; the model's choice, log 105). The chosen task is the first
of the ready lists, taken in order of priority, whose flow no lane holds and whose run would not come after its deadline
(R101, R267). An axis task that its deadline has passed over stays listed (the model's choice, log 105). -/
def Obligations.HandOffByPriority : Prop :=
  (∀ (s : State) (k : Task) (n : Nat), s.passive = false → s.chosen = some k → s.waitingLane = some n →
     field s.ptb.jitterA 11 0 = 0 → n < s.lanes.length →
     let kk := if k.axisTask then k.lastK.getD 0 else s.cyc.num + 1
     let lat := match k.arrived with
       | some a => if s.clk.derated then (s.tim.now - a) * 5 / 6 else s.tim.now - a
       | none => 0
     let job : Job :=
       { task := k.num, flow := k.flow, axis := if k.axisTask then some k.flow else none, k := kk, stamp := kk % 2 ^ 24
         flags := k.flags &&& k.mask, d := taskDiv s.charter k, handedAt := s.tim.now, phase := .handed, next := none
         base := none, n15 := 0, placed := s.cht.placed }
     exec .handOff s = .next { s with
       lanes := (s.mapLane n fun l => { l with
         job := some job, state := if s.reduced then .holding else .running
         ram := if k.axisTask then loadImage l.ram s.pages k.flow else l.ram }).lanes
       axes := if k.axisTask then (s.mapAxis k.flow fun a => { a with began := a.began || a.jobK == kk }).axes else s.axes
       teller := { s.teller with
         ready := s.teller.ready.map fun l => l.filter fun m => m != k.num
         tasks := s.teller.tasks.map fun q => if q.num == k.num then
           { q with flags := q.flags &&& ~~~q.mask, st := .service, running := true, runs := q.runs + 1, arrived := none } else q
         flows := k.flow :: s.teller.flows, latMax := BitVec.ofNat 32 (max s.teller.latMax.toNat lat) } }) ∧
  (∀ (t : Teller) (late : Task → Bool) (k : Task), t.choose late = some k →
     k.flow ∉ t.flows ∧ k.inTime = true ∧ late k = false ∧ ∃ a b, t.ready.flatten = a ++ k.num :: b ∧ t.task? k.num = some k
       ∧ ∀ m ∈ a, ∀ k', t.task? m = some k' → k'.flow ∈ t.flows ∨ k'.inTime = false ∨ late k' = true)

/-- Setting a flag (R262): one that is set already merges; either way the flag is set and nothing else of the tables changes,
but that the task becomes ready. A waiting task becomes ready, at the tail of the list of its priority, exactly where no run
of it is in service, its flags satisfy its mask under ANY or ALL (R261), and, of an AXIS_TASK, a RETURN event has reached it
(R265). A unit without the Warrant runs no tasks (log 49); the pending bits of the cores are log 91. EVENT_ARRIVAL takes the
oldest event raised: on a unit that runs its tasks the bindings under which it was raised deliver it in their order, then the
bindings of the cores set bits of TLR_IPEND (R263, R266, R278); a SOFTWARE event whose one binding names a task sets that flag
of the task. DELAY_ENTRY_FIRE sets the flag of the oldest entry taken by a tick (R275). TLR_TAKE reads as 0 with CORE_TAKE in
TLR_ERR and ERR in TLR_EVT (R274). TLR_SETEV raises one SOFTWARE event for each 1 written, lowest bit first (R279). Nothing
else changes. -/
def Obligations.FlagsAndEvents : Prop :=
  (∀ (t : Teller) (n b : Nat) (k : Task), t.task? n = some k → b < 32 →
     (bit k.flags b = true → t.setFlag n b = ({ t with merged := t.merged + 1 } : Teller).checkReady n) ∧
     (bit k.flags b = false → t.setFlag n b = ({ t with
       tasks := t.tasks.map fun q => if q.num == n then { q with flags := setBit q.flags b } else q } : Teller).checkReady n) ∧
     (let wakes := k.st = .waiting ∧ k.running = false ∧ (k.axisTask = true → k.lastK ≠ none) ∧
         (if k.all then ∀ i, i < 32 → bit k.mask i = true → bit k.flags i = true
          else ∃ i, i < 32 ∧ bit k.mask i = true ∧ bit k.flags i = true);
       (wakes → t.checkReady n = { t with
         tasks := t.tasks.map fun q => if q.num == n then { q with st := .ready } else q
         ready := setAt t.ready k.prio (· ++ [n]) }) ∧
       (¬wakes → t.checkReady n = t))) ∧
  (∀ s : State,
     (∀ e rest, s.teller.raised = e :: rest →
       exec .eventArrival s = .next { s with
         teller := (if s.passive then { s.teller with raised := rest }
           else forEach (if e.gen = s.teller.gen then s.teller.binds else s.teller.oldBinds)
             (fun b t => t.deliver s.charter e s.tim.now b) { s.teller with raised := rest }).pendCores e }) ∧
     (∀ e rest r, s.passive = false → s.teller.raised = e :: rest → e.kind = 9 → e.gen = s.teller.gen → s.teller.binds = [r] →
       r.kind = 9 → r.index = e.index → (s.teller.task? r.task).isSome = true → r.bit < 32 → Runs .eventArrival s fun t =>
         ∃ k, t.teller.task? r.task = some k ∧ bit k.flags r.bit = true) ∧
     (∀ e rest, s.passive = false → s.teller.dueQ = e :: rest →
       exec .delayEntryFire s = .next { s with
         teller := ({ s.teller with dueQ := rest } : Teller).eventFlag e.task e.flag s.tim.now none }) ∧
     (∀ src : Source, exec (.tlrTakeRead src) s = .next { s with
       readData := 0, teller := { s.teller with err := setBit s.teller.err 1, evt := setBit s.teller.evt 3 } }) ∧
     (∀ (src : Source) (v : Word), exec (.softwareEvent src v) s = .next { s with teller := { s.teller with
       raised := s.teller.raised ++ ((List.range 32).filter fun i => bit v i).map fun i =>
         { kind := 9, index := i, k := 0, gen := s.teller.gen } } }))

/-- Commands on the task of TLR_TASKSEL (R261, R262, R281): SUSPEND takes it off the ready lists; RESUME lets a suspended one
wait again, and it becomes ready at once where its flags satisfy its mask; SETFLAGS sets its flags by TLR_TASKARG, those set
already merging, and CLRFLAGS clears them, a ready task waiting again where its mask is then not satisfied, its arrival
forgotten (R280); a task that is not defined sets BAD_CMD. Nothing else changes. SETFLAGS on a unit without a Warrant does
nothing (R368). INSERT puts an entry into its delay list in due order, after entries of the same time, or sets DELAY_FULL
where the list holds 256; CANCEL takes every entry of the task and flag out of it (R275, R277). A task that is not defined
sets BAD_CMD. Nothing else changes. On a unit that runs its tasks the 1 µs tick takes the entries that are due, of DL0 to DL7
in order; those not due stay, and a periodic one stands again at its due time plus its period, behind the entries of the same
due time (R275). A unit without the Warrant runs no tasks and its lists stay (R368; log 49). -/
def Obligations.TasksAndDelays : Prop :=
  (∀ (src : Source) (s : State),
     let n := field s.teller.taskSel 10 0
     let arg := s.teller.taskArg
     let goes := fun (i : Instr) (t : Teller) => exec i s = .next { s with teller := t }
     let sets := fun (f : Task → Task) => s.teller.tasks.map fun q => if q.num == n then f q else q
     let off := s.teller.ready.map fun l => l.filter fun m => m != n
     (∀ k, s.teller.task? n = some k →
       goes (.suspend src) { s.teller with ready := off, tasks := sets fun q => { q with st := .suspended } } ∧
       (k.st = .suspended → goes (.resume src) (({ s.teller with
         tasks := sets fun q => { q with st := if q.running then .service else .waiting } } : Teller).checkReady n)) ∧
       (k.st ≠ .suspended → goes (.resume src) s.teller) ∧
       (s.passive = false → goes (.setflags src) (({ s.teller with
         merged := s.teller.merged + BitVec.ofNat 32 ((List.range 32).filter fun i => bit k.flags i && bit arg i).length
         tasks := sets fun q => { q with flags := q.flags ||| arg } } : Teller).checkReady n)) ∧
       (let cut := { k with flags := k.flags &&& ~~~arg };
         let left := if cut.satisfied then cut else { cut with arrived := none };
         goes (.clrflags src) (if k.st = .ready ∧ left.satisfied = false then
           { s.teller with ready := off, tasks := sets fun _ => { left with st := .waiting } }
           else { s.teller with tasks := sets fun _ => left }))) ∧
     (s.passive = true → exec (.setflags src) s = .next s) ∧
     (s.teller.task? n = none → s.passive = false → ∀ c ∈ [Instr.suspend src, .resume src, .setflags src, .clrflags src],
       goes c { s.teller with err := setBit s.teller.err 2, evt := setBit s.teller.evt 3 })) ∧
  (∀ (src : Source) (s : State),
     let n := field s.teller.dlyTask 10 0
     let b := field s.teller.dlyTask 20 16
     let li := field s.teller.dlyTask 26 24
     let old := s.teller.lists.getD li []
     let e : Delay := { task := n, flag := b, due := s.teller.dlyDue.toNat, period := field s.teller.dlyPeriod 15 0, timer := false }
     let goes := fun (i : Instr) (t : Teller) => exec i s = .next { s with teller := t }
     ((s.teller.task? n).isSome = true → li < s.teller.lists.length →
       (old.length < 256 → old.Pairwise (fun x y => x.due ≤ y.due) → ∃ pre post, old = pre ++ post ∧
         (∀ x ∈ pre, x.due ≤ e.due) ∧ (∀ x ∈ post, e.due < x.due) ∧
         goes (.insert src) { s.teller with lists := s.teller.lists.set li (pre ++ e :: post) }) ∧
       (256 ≤ old.length → goes (.insert src) { s.teller with evt := setBit s.teller.evt 2 }) ∧
       goes (.cancel src) { s.teller with
         lists := s.teller.lists.set li (old.filter fun x => ¬ (x.task = n ∧ x.flag = b)) }) ∧
     (s.teller.task? n = none → ∀ c ∈ [Instr.insert src, .cancel src],
       goes c { s.teller with err := setBit s.teller.err 2, evt := setBit s.teller.evt 3 }) ∧
     (Runs .tick1us s fun t =>
       t.teller = { s.teller with dueQ := t.teller.dueQ, lists := t.teller.lists, raised := t.teller.raised }
         ∧ (s.passive = true → t.teller.dueQ = s.teller.dueQ ∧ t.teller.lists = s.teller.lists)
         ∧ (s.passive = false →
             let us := s.time / 1000
             t.teller.dueQ = s.teller.dueQ ++ s.teller.lists.flatMap (fun l => l.filter fun e => e.due ≤ us)
               ∧ t.teller.lists.length = s.teller.lists.length
               ∧ (∀ i, ∀ e ∈ s.teller.lists.getD i [], us < e.due → e ∈ t.teller.lists.getD i [])
               ∧ (∀ i, ∀ e ∈ s.teller.lists.getD i [], e.due ≤ us → e.period ≠ 0 →
                   { e with due := e.due + e.period } ∈ t.teller.lists.getD i [])
               ∧ (∀ i, ∀ e ∈ t.teller.lists.getD i [], (us < e.due ∧ e ∈ s.teller.lists.getD i [])
                   ∨ ∃ e' ∈ s.teller.lists.getD i [], e'.due ≤ us ∧ e'.period ≠ 0 ∧ e = { e' with due := e'.due + e'.period })
               ∧ ∀ i, (s.teller.lists.getD i []).Pairwise (fun x y => x.due ≤ y.due) →
                   (t.teller.lists.getD i []).Pairwise fun x y => x.due ≤ y.due)))

/-- A permitted access of the Ledger window becomes a request of one beat of its source's requester, and changes no entry
until its last beat (R288, R289); the line of a read is looked up in the cache (R291). The accesses are of 64 bits at a whole
entry, or of 32 bits at either half. An access before READY does nothing but set NOT_READY, a read returning 0 (R287). An
access of any other form sets WIDTH, a read returning 0 (R9, R288). Nothing else changes. The sets of the cache are log 84.
The last beat of a transfer: it leaves the fabric and GRANTS counts it (R295, R301). A window write puts its entry and no
other: 64 bits whole, a value with the cycle number as its stamp, or word 1 (R288); a window read returns the entry, or the
word of it; a lane's posted write leaves its queue and puts its entry (R141); the entries of a lane's read come to the lane
(R140). The identifiers are neither reserved nor of class 0x03, and the stored bits are sound (R282, R293). Nothing else
changes. -/
def Obligations.LedgerWindow : Prop :=
  (∀ (src : Source) (w : Width) (id : Nat) (hi : Bool) (v : Word64) (s : State), id < 2 ^ 25 →
     (w = .w64 ∧ hi = false) ∨ w = .w32 →
     let addr := 0x50000000 + 8 * id + (if hi then 4 else 0)
     (s.ledger.ready = true →
       (Runs (.ledgerWindowRead src w addr) s fun t =>
         t = { s with
           arb := { s.arb with reqs := s.arb.reqs ++ [Req.asked (srcReq src) (.windowRead src w id hi) 1] }
           ledger := { s.ledger with
             hits := t.ledger.hits, misses := t.ledger.misses, lines := t.ledger.lines, fills := t.ledger.fills } }) ∧
       exec (.ledgerWindowWrite src w addr v) s = .next { s with
         arb := { s.arb with reqs := s.arb.reqs ++ [Req.asked (srcReq src) (.windowWrite src w id hi v) 1] } }) ∧
     (s.ledger.ready = false →
       exec (.ledgerWindowRead src w addr) s = .next { s with
         readData := 0, ledger := { s.ledger with evt := setBit s.ledger.evt 1 } } ∧
       exec (.ledgerWindowWrite src w addr v) s = .next { s with ledger := { s.ledger with evt := setBit s.ledger.evt 1 } }) ∧
     (∀ w', w' = .w8 ∨ w' = .w16 →
       exec (.ledgerWindowRead src w' addr) s = .next { s with readData := 0, glb := s.glb.error s.pclk 0 src false w' addr } ∧
       exec (.ledgerWindowWrite src w' addr v) s = .next { s with glb := s.glb.error s.pclk 0 src true w' addr })) ∧
  (∀ (s : State) (o : Owner), s.arb.owner = some o → o.lastBeat ≤ s.fclk → memWf s.ledger.mem = true →
     let plain := fun id => idReserved id = false ∧ idClass id ≠ 3
     let arb := { s.arb with
       per := setAt s.arb.per o.r.req fun p => p.done s.fclk, owner := none, parked := o.turn, lastSealed := o.r.restart }
     (∀ src w id hi v, o.r.xfer = .windowWrite src w id hi v → plain id → s.par.role ≠ .standby →
       Runs (.transferComplete []) s fun t => t = { s with arb := arb, ledger := t.ledger, par := t.par } ∧
         s.wrote t id (match w, hi with
           | .w64, _ => v
           | _, true => entry (entryValue (memRead s.ledger.mem id)) (field v 7 0) (field v 31 8)
           | _, false => entry (v.setWidth 32) (entryStatus (memRead s.ledger.mem id)) (s.cyc.num % 2 ^ 24))) ∧
     (∀ src w id hi, o.r.xfer = .windowRead src w id hi → plain id → id ∉ s.ledger.bad →
       exec (.transferComplete []) s = .next { s with arb := arb, readData := match w, hi with
         | .w64, _ => memRead s.ledger.mem id
         | _, true => ((memRead s.ledger.mem id).extractLsb' 32 32).setWidth 64
         | _, false => ((memRead s.ledger.mem id).extractLsb' 0 32).setWidth 64 }) ∧
     (∀ n p ps, o.r.xfer = .lanePost n → n < s.lanes.length → (s.lane n).post = p :: ps → plain p.id →
       Runs (.transferComplete []) s fun t =>
         t = { s with arb := arb, ledger := t.ledger, par := t.par, lanes := (s.mapLane n fun l => { l with post := ps }).lanes } ∧
           s.wrote t p.id (entry p.value p.status p.stamp)) ∧
     (∀ n r, o.r.xfer = .laneRead n → n < s.lanes.length → (s.lane n).stall = some r →
       (∀ id ∈ r.ids, plain id ∧ id ∉ s.ledger.bad) →
       exec (.transferComplete []) s = .next { s with
         arb := arb, lanes := (s.mapLane n fun l => { l with got := some (r.ids.map fun id => memRead s.ledger.mem id) }).lanes }))

/-- The arbiter (R294 to R301). A request whose target is ready becomes eligible and is sampled from the next FCLK cycle. A
decision with no transfer under way grants the selected request, and a back-pressure episode counts from it (R393); an urgent
one preempts a transfer that is neither urgent nor sealed and has a beat to come, which stands again at the head of the
requests as a sealed restart, with ARB_EVT.PREEMPT. A normal or low request sampled in 1,024 cycles is promoted, with its
event. A window that has run its length begins again with counts 0, no requester masked, and the classes that waited. A write
to TALLY_CLEAR clears GRANTS and WAIT of the requesters named, but for what the same cycle added. DRAM completes the oldest
fill: the line is held, and its beats leave the write buffer (R292, R460). Nothing else changes. That an urgent request
preempts another requester only is log 83, the DRAM behind the cache log 97. -/
def Obligations.Arbitration : Prop :=
  ∀ s : State,
    (∀ req r, s.arb.head? req = some r → r.eligible = false → s.ptb.holds req = false → s.targetReady r = true →
      Runs (.requestEligible req) s fun t => t = { s with arb := { s.arb with reqs := t.arb.reqs } } ∧
        t.arb.head? req = some { r with eligible := true, sampledAt := some (s.fclk + 1) } ∧
        ∀ q, q ≠ req → t.arb.reqs.filter (fun r => r.req == q) = s.arb.reqs.filter fun r => r.req == q) ∧
    (∀ g r, s.arb.owner = none → s.select s.fclk = some (g, r) →
      Runs .arbDecision s fun t => t = { s with arb := s.arb.grant s.fclk g r, ptb := { s.ptb with bpWait := false } } ∧
        (∃ o, t.arb.owner = some o ∧ o.r.req = r.req ∧ o.r.xfer = r.xfer ∧ o.granted = s.fclk) ∧ t.arb.lastOwner = r.req) ∧
    (∀ o r, s.arb.owner = some o → o.r.urgent = false → o.r.restart = false → s.fclk < o.lastBeat →
      s.preemptor s.fclk o = some r →
      Runs .arbDecision s fun t => t = { s with arb := ({ s.arb with
          reqs := { o.r with eligible := true, restart := true, promoted := false, sampledAt := some s.fclk } :: s.arb.reqs
          owner := none, parked := false, preempts := s.arb.preempts + 1, evt := setBit s.arb.evt 0 } : Arb).grant s.fclk 0 r } ∧
        ∃ o', t.arb.owner = some o' ∧ o'.r.xfer = r.xfer) ∧
    (∀ req r u, s.arb.head? req = some r → r.eligible = true → r.sampledAt = some u → u + 1024 ≤ s.fclk + 1 → r.promoted = false →
      s.arb.group r = some 3 ∨ s.arb.group r = some 4 → Runs (.promotion req) s fun t =>
        t = { s with arb := { s.arb with reqs := t.arb.reqs, evt := setBit s.arb.evt 2 } } ∧
        t.arb.head? req = some { r with promoted := true } ∧
        ∀ q, q ≠ req → t.arb.reqs.filter (fun r => r.req == q) = s.arb.reqs.filter fun r => r.req == q) ∧
    (s.arb.winStart + s.arb.winLen ≤ s.fclk →
      (s.arb.pendingCls = none → exec .allowanceWindowEnd s = .next { s with arb := { s.arb with
        winStart := s.arb.winStart + s.arb.winLen, per := s.arb.per.map fun p => { p with count := 0, masked := false } } }) ∧
      (∀ cls len beats, s.arb.pendingCls = some (cls, len, beats) → Runs .allowanceWindowEnd s fun t =>
        t = { s with arb := { s.arb with
          winStart := s.arb.winStart + s.arb.winLen, per := t.arb.per, winLen := len, urgentBeats := beats, pendingCls := none } } ∧
        t.arb.per.length = s.arb.per.length ∧
        ∀ i, i < s.arb.per.length → t.arb.reqState i = { s.arb.reqState i with
          count := 0, masked := false, cls := (cls.getD i (2, 64)).1, allowance := (cls.getD i (2, 64)).2 })) ∧
    (∀ (src : Source) (v : Word), Runs (.tallyClear src v) s fun t => t = { s with arb := { s.arb with per := t.arb.per } } ∧
      t.arb.per.length = s.arb.per.length ∧
      ∀ i, i < s.arb.per.length → t.arb.reqState i =
        let p := s.arb.reqState i
        if bit v i = false then p
        else if p.updAt = s.fclk then { p with grants := p.updGrants, wait := p.updWait }
        else { p with updAt := s.fclk, updGrants := 0, updWait := 0, updMax := 0, grants := 0, wait := 0 }) ∧
    (∀ n rest, s.ledger.fills = n :: rest → Runs .dramAccessComplete s fun t => t = { s with ledger := { s.ledger with
        fills := rest, lines := t.ledger.lines, wbuf := s.ledger.wbuf.filter fun m => m != n } } ∧
      (0 < s.ledger.sets → s.ledger.pinned (8 * n) = false → n ∈ t.ledger.lines))

/-- STEP outputs: where a pulse is due and STEP is low, DIR is turned first where it stands the other way; the pulse rises
once DIR has been set for its set-up time and STEP low for its width, and one pulse less is due; STEP falls after its width
(R90, R228, R229). A compare pulse ends PULSE_W × 10 ns after its pin rose, 0 being read as 1 (R250). The end of an AIN
conversion leaves the code nearest to V / 1.8 V × 2^16 with its sample instant, a whole microsecond 800 ns before (R256, R439;
log 35), and while a recording runs the fast channels of that input take it as their sample of that instant (R352). Nothing
but that unit changes, and nothing at all where its condition does not hold. The order of STEP and DIR edges is log 34. A
trigger input (R233, R248): a pulse shorter than MIN_PW is rejected. An accepted change that MODE selects, an edge of its kind
or, once armed, a level, fires it: FIRED, the time of the pin edge, the count of its latch source where one is chosen, with
its validity, its TRIGGER event, and the acquisition engine is told (R255, R360). A change that fires nothing takes the level,
and arms a level mode again where it is inactive. Nothing else changes. The instant of an edge is log 30, a level trigger log
31. -/
def Obligations.OutputsAndTriggers : Prop :=
  (∀ s : State,
     (∀ n, n < s.io.step.length →
       let p := s.io.step.getD n StepPair.reset
       let goes := fun (i : Instr) (q : StepPair) => exec i s = .next { s with io := { s.io with step := s.io.step.set n q } }
       (∀ (neg : Bool) (m : Nat) (rest : List (Bool × Nat)), p.due = (neg, m) :: rest →
         (p.step = false → p.dir ≠ neg → goes (.stepPulse n) { p with dir := neg, dirAt := s.time }) ∧
         (p.step = false → p.dir = neg → p.dirAt + p.setupNs ≤ s.time → p.fallAt + p.pulseNs ≤ s.time →
           goes (.stepPulse n) { p with
             step := true, riseAt := s.time, due := if m ≤ 1 then rest else (neg, m - 1) :: rest }) ∧
         (p.step = true ∨ p.dir = neg ∧ (s.time < p.dirAt + p.setupNs ∨ s.time < p.fallAt + p.pulseNs) →
           goes (.stepPulse n) p)) ∧
       (p.due = [] → goes (.stepPulse n) p) ∧
       (p.step = true → p.riseAt + p.pulseNs ≤ s.time → goes (.stepPulseEnd n) { p with step := false, fallAt := s.time }) ∧
       (p.step = false ∨ s.time < p.riseAt + p.pulseNs → goes (.stepPulseEnd n) p)) ∧
     (∀ n, n < s.io.lcmp.length →
       let c := s.lcmp n
       let ended := field c.cfg 11 10 = 0 ∧ c.level = true ∧ c.actAt + max (field c.cfg 31 20) 1 * 10 ≤ s.time
       (ended → exec (.comparePulseEnd n) s = .next { s with io := { s.io with lcmp := s.io.lcmp.set n { c with level := false } } }) ∧
       (¬ended → exec (.comparePulseEnd n) s = .next s)) ∧
     (∀ (n : Nat) (v : Int), 0 ≤ v → v * 65536 ≤ 1800000 * 65535 → n < s.io.ain.length →
       let at1 := (s.time - 800) / 1000 * 1000
       let takes := fun (code : BitVec 16) => { s.io with ain := s.io.ain.set n code, ainAt := s.io.ainAt.set n (some at1) }
       let near := fun code : BitVec 16 => 2 * ((code.toNat : Int) * 1800000 - v * 65536).natAbs ≤ 1800000
       ((s.acq.recording = false ∧ s.acq.state ≠ .cal) ∨ s.io.ainAt.getD n none = some at1 →
         Runs (.ainConversionDone n v) s fun t => ∃ code, near code ∧ t = { s with io := takes code }) ∧
       (s.acq.recording = true → s.io.ainAt.getD n none ≠ some at1 → s.acq.trigCh < 64 → s.acq.chan.length = 72 →
         Runs (.ainConversionDone n v) s fun t => ∃ code, near code ∧
           t = { s with io := takes code, acq := { s.acq with chan := t.acq.chan } } ∧
           ∀ j, t.acq.chan! j = if 64 ≤ j ∧ j < 72 ∧ s.acq.fastEn (j - 64) = true ∧ s.acq.fastSrc (j - 64) = 0
                 ∧ field (s.acq.fch.getD (j - 64) 0) 2 0 = n ∧ s.acq.fFirst ≤ at1 then
               (s.acq.sample j (code.setWidth 32) at1).chan! j
             else s.acq.chan! j))) ∧
  (∀ (n held : Nat) (level : Bool) (s : State), n < 16 → s.io.trg.length = 16 →
     let g := s.trg n
     let at1 := s.time - g.minPw
     let port := s.fb (field g.cfg 15 12)
     let fires := g.mode = 1 ∧ level = true ∨ g.mode = 2 ∧ level = false ∨ g.mode = 3 ∨ g.mode = 4 ∧ g.armed = true ∧ level = true
       ∨ g.mode = 5 ∧ g.armed = true ∧ level = false
     (held < g.minPw ∨ g.level = level → exec (.triggerInput n level held) s = .next s) ∧
     (g.minPw ≤ held → g.level ≠ level → fires → exec (.triggerInput n level held) s = .next (({ s with
       io := { s.io with trg := s.io.trg.set n { g with
         level := level, fired := true, time := at1, firings := g.firings + 1, armed := decide (g.mode ≤ 3)
         latch := if bit g.cfg 16 then port.count else g.latch
         latchInvalid := g.latchInvalid || (bit g.cfg 16 && port.invalid) } }
       teller := { s.teller with raised := s.teller.raised ++ [{ kind := 6, index := n, k := 0, gen := s.teller.gen }] }
       } : State).acqTrigger n at1)) ∧
     (g.minPw ≤ held → g.level ≠ level → ¬fires → exec (.triggerInput n level held) s = .next { s with
       io := { s.io with trg := s.io.trg.set n { g with
         level := level, armed := g.armed || (g.mode == 4 && !level) || (g.mode == 5 && level) } } }))

/-- FEEDBACK_EDGE (R233, R249): a pulse below MIN_PW is counted once in the glitch counter and passes on to the repeat outputs
at DIV 1 alone; levels held for MIN_PW take the port to what the change makes of it, dated at the pin edge. SSI_TRANSFER
(R236): a reading that the encoder was ready for, with its tail low, and which is a first one or within 2^(bits − 2) of the
last, is accepted and the count advances by the signed difference, reversed by INVERT, unless the count is INVALID (R234); any
other sets SSI_ERR and leaves count and reading. Nothing else changes; an edge dated at or before t(k) that comes after the
latch at t(k) is the case of R255, of which this says nothing. The corners of edges and readings are log 28, the instant of an
edge log 30, a divided repeat log 33. Quadrature levels that change (R232, R234): a step forwards counts up and a step back
down, INVERT reversing both, with the interval from the last counted edge of the same direction and the direction; two edges
less than 40 ns apart, or a change of both inputs at once, set OVERRATE and INVALID; while the count is INVALID it does not
change. Nothing else of the port changes. That A before B counts up is the model's reading (log 27). -/
def Obligations.PortInputs : Prop :=
  (∀ (n : Nat) (s : State), n < 16 → s.io.fb.length = 16 →
     let p := s.fb n
     (∀ (l : BitVec 3) (held : Nat), held < p.minPw →
       let q := { p with pins := l, glitch := if l = p.levels then p.glitch else p.glitch + 1 }
       exec (.feedbackEdge n l held) s = .next { s with io := { s.io with
         fb := s.io.fb.set n q
         fbo := s.io.fbo.map fun o => if field o.cfg 3 0 == n then o.follow p { p with pins := l } else o } }) ∧
     (∀ (l : BitVec 3) (held : Nat), p.minPw ≤ held → s.io.latTk < s.time - p.minPw ∨ s.cyc.sampled = false →
       Runs (.feedbackEdge n l held) s (s.portGoes n ({ p with pins := l }.change l (s.time - p.minPw)))) ∧
     (∀ (b : BitVec 40) (ready tail : Bool), p.kind = 2 →
       let bits := ssiBits (field p.cfg 17 12)
       let v := ssiReading bits (bit p.cfg 18) b.toNat
       let near := p.ssiFirst = true ∨ ∀ old, p.ssiPrev = some old → (ssiDiff bits v old).natAbs ≤ 2 ^ (bits - 2)
       let d := ((p.ssiPrev.map fun old => ssiDiff bits v old).getD 0) * (if bit p.cfg 2 then -1 else 1)
       (ready = true → tail = true → near → Runs (.ssiTransfer n ready b tail) s (s.portGoes n { p with
         clkIdle := false, ssiPrev := some v, ssiAbs := v, ssiBad := false, ssiFirst := false
         ssiAt := if d = 0 then p.ssiAt else s.time
         count := if p.invalid then p.count else p.count + BitVec.ofInt 32 d
         dir := if d = 0 then p.dir else decide (d < 0) })) ∧
       (ready = false ∨ tail = false ∨ ¬near → Runs (.ssiTransfer n ready b tail) s (s.portGoes n { p with
         clkIdle := false, ssiErr := true, ssiBad := true, badN := p.badN + 1 })))) ∧
  (∀ (p : FbPort) (l : BitVec 3) (t : Nat), p.kind = 0 → bit p.cfg 3 = false →
     let move := (quadIndex l + 4 - quadIndex p.levels) % 4
     let near := p.edges ≠ 0 ∧ t < p.tLast + 40
     let counts := fun neg : Bool => { p with
       levels := l, count := if neg then p.count - 1 else p.count + 1, tLast := t, edges := min 2 (p.edges + 1), dir := neg
       interval := if p.edges ≠ 0 ∧ neg = p.dir then min (t - p.tLast) (2 ^ 32 - 1) else 0
       dirN := if neg = p.dir then p.dirN else p.dirN + 1 }
     (move = 0 → p.change l t = { p with levels := l }) ∧
     (p.invalid = false → ¬near → move = 1 → p.change l t = counts (bit p.cfg 2)) ∧
     (p.invalid = false → ¬near → move = 3 → p.change l t = counts (!bit p.cfg 2)) ∧
     (p.invalid = false → near → move = 1 ∨ move = 3 → p.change l t = { p with levels := l, overrate := true, invalid := true }) ∧
     (move = 2 → p.change l t = { p with levels := l, overrate := true, invalid := true }) ∧
     (p.invalid = true → move = 1 ∨ move = 3 → p.change l t = { p with levels := l }))

/-- Compare units (R251, R252): a write of a register of a local unit waits for the next TCLK edge, which takes the writes
that wait in order (log 32). One write to S writes S and clears BEHIND; one that arms the unit, or changes V, has V judged
against the count where that is valid, and BEHIND is set where it is behind, with its event where EVT_BEHIND is 1; one that
leaves V as it was clears BEHIND. A station unit takes a write at once, by the position of its axis; the two words of V are
taken together. OVERRATE_CLEAR makes a count valid again and applies the behind check afresh to the armed local units that
watch the port (R234, R252); of a station channel it clears OVERRATE of FBK_AXSTAT (R238), and REF_LOST_CLEAR clears REF_LOST
there (R244). Nothing else changes. -/
def Obligations.CompareAndClears : Prop :=
  ∀ (src : Source) (s : State),
    (∀ (n : Nat) (r : CmpReg) (v : Word), n < 8 →
      exec (.compareArm src false n r v) s = .next { s with io := { s.io with cmpWrites := s.io.cmpWrites ++ [(n, r, v)] } } ∧
      (s.io.lcmp.length = 8 → s.io.cmpWrites = [(n, .step, v)] → s.cmpTick = { s with io := { s.io with
        cmpWrites := [], lcmp := s.io.lcmp.set n { s.lcmp n with step := v, behind := false } } }) ∧
      (s.io.lcmp.length = 8 → s.io.cmpWrites = [(n, .val, v)] →
        let s1 := { s with io := { s.io with cmpWrites := [] } }
        let c := { s.lcmp n with val := v.setWidth 64 }
        s.cmpTick = s1.localUnit n c
          (v != (s.lcmp n).val.extractLsb' 0 32 && !(s.fb (field c.cfg 3 0)).invalid && s1.isBehind c)) ∧
      (s.io.lcmp.length = 8 → s.io.cmpWrites = [(n, .cfg, v)] →
        let s1 := { s with io := { s.io with cmpWrites := [] } }
        let c := { s.lcmp n with cfg := v &&& 0xFFF07F0F }
        s.cmpTick = s1.localUnit n c (bit v 12 && !(s.fb (field c.cfg 3 0)).invalid && s1.isBehind c))) ∧
    (∀ (m : Nat) (v : Word), m < 32 → s.io.scmp.length = 32 →
      let c := s.scmp m
      let behind := fun (cfg : Word) (x : Word64) =>
        let run := (s.axis (field cfg 7 0)).run
        behindOf (field cfg 9 8) ((run.posFb.extractLsb' 32 64).toInt - x.toInt) (bit run.stat 27) run.prim.standstill
      let x := s.pairOf (0x40150404 + 0x20 * m) v
      exec (.compareArm src true m .step v) s = .next (s.stationUnit m { c with step := v } false) ∧
      exec (.compareArm src true m .cfg v) s = .next (s.stationUnit m { c with cfg := v &&& 0xFFF37FFF }
        (bit v 12 && behind v c.val)) ∧
      exec (.compareArm src true m .val v) s = .next (s.stageLo (0x40150404 + 0x20 * m) v) ∧
      exec (.compareArm src true m .valHi v) s = .next (s.stationUnit m { c with val := x } (x != c.val && behind c.cfg x))) ∧
    (∀ n, n < s.io.fb.length → s.io.lcmp.length = 8 →
      ((s.fb n).overrate = true →
        let late := (List.range 8).filter fun u =>
          bit (s.lcmp u).cfg 12 && field (s.lcmp u).cfg 3 0 == n && s.isBehind (s.lcmp u)
        Runs (.overrateClear src (.port n)) s fun t =>
          t = { s with
            io := { s.io with
              fb := s.io.fb.set n { s.fb n with overrate := false, invalid := false }
              lcmp := t.io.lcmp, lBehind := late.foldl setBit s.io.lBehind }
            teller := { s.teller with raised := s.teller.raised ++ (late.filter fun u => bit (s.lcmp u).cfg 13).map fun u =>
              { kind := 5, index := u, k := 0, gen := s.teller.gen } } } ∧
          t.io.lcmp.length = 8 ∧
          ∀ u, u < 8 → t.lcmp u = { s.lcmp u with behind := (s.lcmp u).behind || late.contains u }) ∧
      ((s.fb n).overrate = false → exec (.overrateClear src (.port n)) s = .next s)) ∧
    (field s.io.axSel 7 0 < s.axes.length →
      let a := s.axis (field s.io.axSel 7 0)
      let left := fun keep : Word =>
        if bit s.io.axSel 8 then { a with stat1 := a.stat1 &&& keep } else { a with stat0 := a.stat0 &&& keep }
      let goes := fun (i : Instr) (keep : Word) =>
        exec i s = .next { s with axes := s.axes.set (field s.io.axSel 7 0) (left keep) }
      goes (.overrateClear src .axis) 0xFFFFFFFE ∧ goes (.refLostClear src) 0xFFFFFFF7)

/-- Commands of the acquisition engine (R357, R358, R360, R361, R363). START begins a new stream with its BLOCK and START
records, ARMED where PREFILL is 0, the values repeated before the first fresh samples being free values, or is refused with
its reason; STOP ends a recording in DONE with the block in progress padded, and a calibration in IDLE; FORCE places the
trigger in ARMED at the present time with its record and its event, TSAMP being a free value; CAL begins a calibration, which
fails after 1 s. A command that the state does not permit sets LOCKED. Nothing else changes. The states that permit a command
are log 80, the free values log 79. -/
def Obligations.AcquisitionCommands : Prop :=
  ∀ (src : Source) (s : State),
    let free := s.acq.state = .idle ∨ s.acq.state = .done
    let locked := { s with acq := { s.acq with evt := setBit s.acq.evt 5 } }
    (free → s.acqRefusal = 0 → Runs (.acqStart src) s fun t =>
      let cl := min (field s.acq.ivl 4 0) 16
      let fl := min (field s.acq.ivl 12 8) 16
      let mask := fun (l : List Nat) => l.foldl (fun m j => m + 2 ^ j) 0
      t = { s with acq := t.acq, arb := s.arb.dropWrites, freeCount := s.freeCount + 144 } ∧
      t.acq = { s.acq with
        state := if s.acq.prefill = 0 then .armed else .filling
        trigValid := false, wrapped := false, dropped := 0, gap := 0, wptr := 0, bseq := 0, blocksOut := [], written := 0
        issued := 0, moved := 0, trigAt := none, placedAt := none, bytes := 28, bytesC := 0, bytesF := 0, cLog := cl, fLog := fl
        cNext := [], fNext := [], cFirst := t.acq.cFirst, fFirst := ceilTo (2 ^ fl * 1000) s.time, fastAt := none
        checkAt := some (s.time / 1000000), primedUp := false, primedDown := false, chan := t.acq.chan, blockN := 1
        blockWords := [recHead 1 0 4, 1] ++ twoWords s.time ++ [recHead 2 0 7, BitVec.ofNat 32 (cl + fl * 256)]
          ++ twoWords s.time ++ twoWords (mask s.acq.cycleChans) ++ [BitVec.ofNat 32 (mask s.acq.fastChans)] } ∧
      t.acq.cFirst % 2 ^ cl = 0 ∧ t.acq.chan.length = 72) ∧
    (free → s.acqRefusal ≠ 0 →
      exec (.acqStart src) s = .next { s with acq := { s.acq with reason := s.acqRefusal, evt := setBit s.acq.evt 4 } }) ∧
    (¬free → exec (.acqStart src) s = .next locked ∧ exec (.cal src) s = .next locked) ∧
    (s.acq.recording = true → exec (.acqStop src) s = .next (s.streams { s.acq.close with state := .done })) ∧
    (s.acq.state = .cal →
      exec (.acqStop src) s = .next { s with acq := { s.acq with state := .idle, calRefT := none, calChT := none } }) ∧
    (free → exec (.acqStop src) s = .next locked) ∧
    (s.acq.state = .armed → Runs (.force src) s fun t =>
      t = { s with
        acq := t.acq, arb := { s.arb with reqs := t.arb.reqs }, freeCount := s.freeCount + 1
        teller := { s.teller with raised := s.teller.raised ++ [{ kind := 7, index := 0, k := 0, gen := s.teller.gen }] } } ∧
      t.acq.state = .post ∧ t.acq.trigValid = true ∧ t.acq.ttime = BitVec.ofNat 64 s.time ∧ t.acq.tfrac = 0 ∧ t.acq.tf = 0 ∧
        t.acq.placedAt = some (s.time, true) ∧ bit t.acq.evt 0 = true) ∧
    (s.acq.state ≠ .armed → s.acq.state ≠ .post ∨ (s.acq.placedAt.map fun e => e.1 / 1000) ≠ some (s.time / 1000) →
      exec (.force src) s = .next locked) ∧
    (free → exec (.cal src) s = .next { s with acq := { s.acq with
      state := .cal, calStart := s.time, calRefT := none, calChT := none, primedUp := false, primedDown := false, fastAt := none
      chan := s.acq.chan.map fun c => { c with prev := none } } }) ∧
    (s.acq.state = .cal → s.acq.calStart + 1000000000 ≤ s.time → exec .calTimeout s = .next { s with acq := { s.acq with
      state := .idle, evt := setBit s.acq.evt 7, calRefT := none, calChT := none } })

/-- The acquisition stream in time. Each fast channel of levels takes one sample at each whole microsecond of device time
(R352), the GPIO inputs as latched at t(k) in that microsecond, else a free value (log 102); where the trigger is on none of
them nothing else changes. Where it is, a sample that does not meet the condition changes nothing else either; one that meets
it in ARMED places the trigger at its instant, corrected by the skew, with its record and its event (R359, R360), and DRAM
stays; in the microsecond of a FORCE placed later it takes that trigger's place, in the record too (R363). An interval that
has run its length ends with its record, and the next begins there (R353); a cycle interval once its samples have been read or
given up (R351). Once a millisecond the bytes formed are held against the allotment and the staging buffer, and beyond them
the interval of the stream with more bytes is doubled (R354). A block that has been written moves the write pointer and the
sequence, and a filling recording becomes ARMED at its PREFILL (R355, R358). A write of a register of the upload ring empties
it (R362). Nothing else changes. The intervals that samples join are log 79. -/
def Obligations.AcquisitionStream : Prop :=
  ∀ s : State,
    let now := s.time / 1000 * 1000
    let gpio : Word := if s.cyc.sampled = true ∧ s.io.latTk = now then s.io.gpioIn else s.free.setWidth 32
    (s.acq.recording = true → s.acq.fastAt ≠ some now → s.acq.chan.length = 72 →
      s.acq.trigCh < 64 ∨ s.acq.fastSrc (s.acq.trigCh - 64) = 0 → Runs .fastSample s fun t =>
        t = { s with acq := { s.acq with fastAt := some now, chan := t.acq.chan }, freeCount := s.freeCount + 1 } ∧
        ∀ j, t.acq.chan! j = if 64 ≤ j ∧ j < 72 ∧ s.acq.fastEn (j - 64) = true ∧ s.acq.fastSrc (j - 64) ≠ 0
              ∧ s.acq.fFirst ≤ now then
            (s.acq.sample j (s.fastValue gpio (j - 64)) now).chan! j
          else s.acq.chan! j) ∧
    (∀ m, s.acq.recording = true → s.acq.fastAt ≠ some now → s.acq.trigCh = 64 + m → m < 8 → s.acq.fastSrc m ≠ 0 →
      let j := 64 + m
      let met := (s.acq.fires (s.acq.compared j (s.fastValue gpio m)) 1 ((s.acq.chan! j).prev.map fun p => s.acq.compared j p.1)).1
      let at1 : Int := (now : Int) * 256 + 16 * ((s.acq.skOff.getD j 0).toInt + (s.acq.skRes.getD j 0).toInt)
      let takes := fun a : Acq => a.ttime = BitVec.ofInt 64 (at1 / 256) ∧ a.tfrac = (at1 % 256).toNat ∧ a.tf = 0
        ∧ a.tsamp = BitVec.ofNat 64 (now / 1000) ∧ a.placedAt = some (s.time, false)
      Runs .fastSample s fun t =>
        (met = false ∨ (s.acq.state ≠ .armed ∧ s.beaten true at1 = false) →
          t = { s with acq := t.acq, freeCount := s.freeCount + 1 } ∧ s.acq.sampled t.acq now) ∧
        (met = true → s.acq.state = .armed →
          t = { s with
            acq := t.acq, arb := { s.arb with reqs := t.arb.reqs }, freeCount := s.freeCount + 1
            teller := { s.teller with raised := s.teller.raised ++ [{ kind := 7, index := 0, k := 0, gen := s.teller.gen }] } } ∧
          (∃ n, t.arb.reqs = s.arb.reqs ++ (List.range n).map fun i => Req.asked 22 (.acqWrite (s.acq.issued + i)) 8) ∧
          takes t.acq ∧ t.acq.state = .post ∧ t.acq.trigValid = true ∧ bit t.acq.evt 0 = true) ∧
        (∀ n off, met = true → s.beaten true at1 = true → s.acq.trigAt = some (n, off) →
          t = { s with acq := t.acq, dram := t.dram, freeCount := s.freeCount + 1 } ∧ takes t.acq ∧ t.acq.state = .post ∧
          t.dram = if 16 * (n - 1) + off / 64 < s.acq.moved then
            (s.dramPut (s.acq.base.toNat + (n - 1) % s.acq.size.toNat * 4096 + 4 * off) t.acq.trigRec).dram else s.dram)) ∧
    (s.acq.recording = true → s.acq.fFirst + 2 ^ s.acq.fLog * 1000 ≤ s.time →
      exec (.intervalEnd true) s = .next (s.streams (s.acq.endFast s.time)) ∧
      (s.acq.endFast s.time).fFirst = s.acq.fFirst + 2 ^ s.acq.fLog * 1000 ∧ (s.acq.endFast s.time).cFirst = s.acq.cFirst) ∧
    (s.acq.recording = true → s.cycleReady = true →
      exec (.intervalEnd false) s = .next (s.streams (s.acq.endCycle s.time)) ∧
      (s.acq.endCycle s.time).cFirst = s.acq.cFirst + 2 ^ s.acq.cLog ∧ (s.acq.endCycle s.time).fFirst = s.acq.fFirst) ∧
    (s.acq.recording = true → s.acq.checkAt ≠ some (s.time / 1000000) →
      let a := { s.acq with bytes := 0, bytesC := 0, bytesF := 0, checkAt := some (s.time / 1000000) }
      let excess := max (field s.acq.bw 15 0) 1 * 1000 < s.acq.bytes ∨ 196608 < s.acq.staged
      (¬excess → exec .bandwidthCheck s = .next (s.streams a)) ∧
      (excess → exec .bandwidthCheck s =
        .next (s.streams (a.double (decide (s.acq.bytesC ≤ s.acq.bytesF)) s.time s.nextBase)))) ∧
    (∀ n ws rest, s.acq.blocksOut = (n, ws) :: rest → 16 * n ≤ s.acq.moved → s.acq.state = .armed ∨ s.acq.state = .filling →
      s.acq.size ≠ 0 → exec .blockWritten s = .next { s with acq := { s.acq with
        blocksOut := rest, written := s.acq.written + 1, bseq := BitVec.ofNat 32 n
        wptr := (s.acq.written + 1) % s.acq.size.toNat
        wrapped := s.acq.wrapped || decide (s.acq.size.toNat ≤ s.acq.written + 1)
        state := if s.acq.state = .filling ∧ s.acq.written + 1 < s.acq.prefill.toNat then .filling else .armed } }) ∧
    (∀ (src : Source) (v : Word),
      exec (.uploadRingSet src 0x40160600 v) s = .next (s.stageLo 0x40160600 v) ∧
      exec (.uploadRingSet src 0x40160604 v) s = .next { s with acq := { s.acq with
        upHead := 0, upTail := 0, upBase := v ++ s.loOf 0x40160600 } } ∧
      exec (.uploadRingSet src 0x40160608 v) s = .next { s with acq := { s.acq with
        upHead := 0, upTail := 0, upSize := v &&& 0x1FFFFF } })

/-- HEARTBEAT: a unit that listens has heard the other (R406). A standby takes the mirror delay, half the sum of the two ways
in ns (R367); on entering STANDBY, once the Ledger is ready, it sets PAR_TOFFS to half the difference and joins the timeline,
its cycle number that of the heartbeat and t(k) a whole multiple of the base period in pair time (R367, R368); the pair-time
error is what PAR_TOFFS then lacks, in 10 ps, and TIME_LOCKED holds within ±1 ns. The rate that stands in TIM_SLEW with EN is
a free value within ±100 ppm (log 48; how a standby joins is log 48, the stamps are log 54). Nothing else changes. The mirror
link goes down and comes up, with its events (R366). Where no Charter is active, or none of a pair, nothing else changes; nor
where the link of a unit of a pair goes down while a port of its Charter has link up. An ISOLATED unit that has one up seeks.
One with none up is ISOLATED then, without a Warrant and with no run in service (R365). When the link comes up under an active
pair Charter, an ISOLATED unit seeks again, and a unit that seeks and hears a holder, whose lease has not lapsed, enters
STANDBY (R365; log 49); any other keeps its role. A mirror frame whose CRC fails is counted in PAR_MIRERR and does nothing
else, whatever it held (R366; log 54). An issue frame of the other unit (R306, R369, R372, R376): one that fails its CRC is
counted; one with an epoch below the highest heard is counted as a wrong epoch of its port; for a holder one of its own epoch
does nothing, and one of a higher epoch supersedes it in full service: SUPERSEDED, STANDBY or SEEKING as the mirror link
stands, and no run in service. Any other renews the Warrant of the other unit, with the delay of the line; a unit in SEEKING
whose mirror link is up enters STANDBY by it (R365). A unit that listens has heard the other (R406; log 54). Invalid code
groups met with it are counted first, as violations of the port too, and change nothing of what the frame does (R304, R345;
log 70). -/
def Obligations.PairHeard : Prop :=
  (∀ (lane cycle : Nat) (h g : HbStamps) (s : State),
     let bst := { s.bst with heard := s.bst.heard || s.bst.listening }
     let dly := (crndDiv (h.twiceDelay g) 200).toNat
     let err := fun toffs : Int => 100 * toffs - crndDiv (h.twiceOffs g) 2
     let steered := fun (t : State) => bit t.tim.slew 16 = true ∧ (signed 16 (field t.tim.slew 15 0)).natAbs ≤ 10000
     (s.par.role ≠ .standby → exec (.heartbeat lane cycle h g true) s = .next { s with bst := bst }) ∧
     (∀ c, s.par.role = .standby → s.cht.active = some c → s.par.gridSet = true →
       Runs (.heartbeat lane cycle h g true) s fun t => steered t ∧ t = { s with
         bst := bst, freeCount := s.freeCount + 1, tim := { s.tim with slew := t.tim.slew }
         par := { s.par with
           mirDly := dly, terr := err s.par.toffs, timeLocked := decide ((err s.par.toffs).natAbs ≤ 100) } }) ∧
     (∀ c, s.par.role = .standby → s.cht.active = some c → s.par.gridSet = false → s.ledger.ready = true →
       Runs (.heartbeat lane cycle h g true) s fun t =>
         let toffs := crndDiv (h.twiceOffs g) 200
         let at1 := (h.dep / 100 + c.period - c.cpOffs) / c.period * c.period
         let now := (((h.arr / 100 : Nat) : Int) + toffs).toNat
         steered t ∧ t = { s with
           bst := bst, freeCount := s.freeCount + 1, tim := { s.tim with slew := t.tim.slew }
           par := { s.par with
             mirDly := dly, toffs := toffs, gridSet := true, terr := err toffs, timeLocked := decide ((err toffs).natAbs ≤ 100) }
           cht := { s.cht with phase := .running }
           cyc := { s.cyc with
             service := 2, num := cycle, numValid := true, k := cycle + 1, tk := at1, sampled := decide (at1 ≤ now)
             frozen := decide (at1 + (c.cpOffs - 1000) ≤ now) } })) ∧
  (∀ s : State,
     let down := { s with par := { s.par with link := false, evt := setBit s.par.evt 5 } }
     let up := { s with par := { s.par with link := true, evt := setBit s.par.evt 6 } }
     (s.par.link = true → s.cht.active = none → exec .mirrorDown s = .next down) ∧
     (∀ c, s.par.link = true → s.cht.active = some c → c.pair = false ∨ (s.lineUp = true ↔ s.par.role ≠ .isolated) →
       exec .mirrorDown s = .next down) ∧
     (∀ c, s.par.link = true → s.cht.active = some c → c.pair = true → s.lineUp = true → s.par.role = .isolated →
       exec .mirrorDown s = .next (down.setRole .seeking)) ∧
     (s.par.link = false → exec .mirrorDown s = .next s) ∧ (s.par.link = true → exec .mirrorUp s = .next s) ∧
     (∀ c, s.par.link = true → s.cht.active = some c → c.pair = true → s.lineUp = false → s.lanes.length = 16 →
       s.par.role ≠ .isolated → Runs .mirrorDown s fun t => t.par.role = .isolated ∧ t.par.link = false ∧ t.par.holds = false
         ∧ bit t.par.evt 5 = true ∧ (∀ n < 16, (t.lane n).job = none) ∧ t.teller.flows = []) ∧
     (s.par.link = false → s.cht.active = none → s.par.role ≠ .seeking ∨ s.lapsed = true → exec .mirrorUp s = .next up) ∧
     (∀ c, s.par.link = false → s.cht.active = some c → c.pair = true →
       (s.par.role ≠ .seeking → s.par.role ≠ .isolated → exec .mirrorUp s = .next up) ∧
       (s.par.role = .seeking → s.lapsed = true → exec .mirrorUp s = .next up) ∧
       (s.par.role = .seeking → s.lapsed = false → exec .mirrorUp s = .next (up.setRole .standby)) ∧
       (s.par.role = .isolated → s.lapsed = true → exec .mirrorUp s = .next (up.setRole .seeking)) ∧
       (s.par.role = .isolated → s.lapsed = false → exec .mirrorUp s = .next ((up.setRole .seeking).setRole .standby))) ∧
     (∀ r, (s.setRole r).par.role = r) ∧
     (∀ (lane cycle : Nat) (h g : HbStamps),
         exec (.heartbeat lane cycle h g false) s = .next { s with par := { s.par with mirErr := s.par.mirErr + 1 } })) ∧
  (∀ (p : Nat) (h : IssueHdr) (s : State), p < s.ports.length →
     let bst := { s.bst with heard := s.bst.heard || s.bst.listening }
     let q := s.port p
     let ports := s.ports.set p { q with lineUi := h.arrUi - h.launchUi }
     let par := s.heard h.epoch (headerCycle s.cyc.num h.cycle) h.lease
     (h.symErrs ≠ 0 →
       exec (.issueFrameReceive p h) s = exec (.issueFrameReceive p { h with symErrs := 0 }) (s.symErrors p h.symErrs) ∧
       ((s.symErrors p h.symErrs).port p).symErr = q.symErr + BitVec.ofNat 32 h.symErrs ∧
       bit ((s.symErrors p h.symErrs).port p).evt 2 = true) ∧
     (h.symErrs = 0 → h.crcOk = false → exec (.issueFrameReceive p h) s = .next { s with
       ports := s.ports.set p { q with crcErr := q.crcErr + 1, evt := setBit q.evt 3 } }) ∧
     (h.symErrs = 0 → h.crcOk = true → h.epoch < s.heardEpoch → exec (.issueFrameReceive p h) s =
       .next (({ s with bst := bst } : State).countPort p 5 (BitVec.ofNat 32 h.epoch))) ∧
     (h.symErrs = 0 → h.crcOk = true → s.heardEpoch ≤ h.epoch → s.par.holds = true →
       (h.epoch ≤ s.par.epoch → exec (.issueFrameReceive p h) s = .next { s with bst := bst }) ∧
       (s.par.epoch < h.epoch → s.reduced = false → s.lanes.length = 16 → Runs (.issueFrameReceive p h) s fun t =>
         t.par.role = (if s.par.link then .standby else .seeking) ∧ bit t.par.evt 1 = true
           ∧ t.par.highest = max s.par.highest h.epoch ∧ t.par.yields = true ∧ t.par.takeAt = 0
           ∧ (∀ n < 16, (t.lane n).job = none) ∧ t.teller.flows = [] ∧ t.pages = s.pages ∧ t.ledger = s.ledger
           ∧ t.ports = s.ports ∧ t.cyc = s.cyc)) ∧
     (h.symErrs = 0 → h.crcOk = true → s.heardEpoch ≤ h.epoch → h.epoch ≠ 0 → s.par.holds = false → s.par.claimAt = none →
       (s.par.role ≠ .seeking → exec (.issueFrameReceive p h) s = .next { s with bst := bst, ports := ports, par := par }) ∧
       (s.par.role = .seeking → s.par.link = true → 0 < (h.lease + 2) * s.period → exec (.issueFrameReceive p h) s =
         .next (({ s with bst := bst, ports := ports, par := par } : State).setRole .standby))))

/-- Records of an Escrow that a standby has open (R380): each counts; a line goes to its page; a task takes its state and
flags; a delay list is replaced, in due order; a delta of a mirrored class goes to its entry as a write of requester 23 and no
entry else changes; a port takes the delays of the line seen from this side, with LEAD_SHORT where a station's lead is then
too small (R373, R382). An Escrow with the right count of records is complete: its cycle is kept, and the output words of
every axis for a claim frame, 0 where the axis has torque off, with the outgoing values that a hand-over takes from its stages
and items (R201, R373; log 50), and a transfer that waits for it goes on, GO sent (R378); one with another count is not. A
delta of a reserved identifier is the record of R284 only. Nothing else changes. How the records are laid out is log 52, how
their writes stand on the fabric log 23, the delays of the line from this side log 73. ESCROW_BEGIN of a renewal with an epoch
not below the highest heard opens an Escrow, and the renewal is heard (R372, R380); by t(k + 1) it also abandons a claim still
to be launched, whose epoch is withdrawn (R372). One with an epoch below it, or heard by the holder, opens none (R369).
Nothing else changes for a unit that is not in SEEKING. -/
def Obligations.EscrowReceived : Prop :=
  (∀ (s : State) (k : Nat), s.par.role = .standby → s.par.rxK = some k →
     let counted := fun n : Nat => { s.par with rxCount := s.par.rxCount + n }
     (∀ (a line : Nat) (ws : List Word), 8 ≤ line → line < 128 → a < 256 → ws.length = 8 → memWf s.pages = true →
       Runs (.escrowLine a line ws) s fun t => t = { s with pages := t.pages, par := counted 1 } ∧
         (∀ i, i < 8 → memRead t.pages (1024 * a + 8 * line + i) = ws.getD i 0) ∧
         ∀ w, (w < 1024 * a + 8 * line ∨ 1024 * a + 8 * line + 8 ≤ w) → memRead t.pages w = memRead s.pages w) ∧
     (∀ (n st : Nat) (w : Word), exec (.escrowTask n st w) s = .next { s with
       par := counted 1
       teller := { s.teller with tasks := s.teller.tasks.map fun q => if q.num == n then { q with
         flags := w
         st := if st = 1 then .waiting else if st = 2 then .ready else if st = 3 then .service else if st = 4 then .suspended
           else q.st } else q } }) ∧
     (∀ (n : Nat) (es : List DelayRec), n < s.teller.lists.length → Runs (.escrowDelay n es) s fun t =>
       t = { s with teller := { s.teller with lists := t.teller.lists }, par := counted es.length } ∧
         (t.teller.lists.getD n []).Pairwise (fun x y => x.due ≤ y.due) ∧
         ((t.teller.lists.getD n []).map fun d => (d.task, d.flag, d.due, d.period)).Perm
           (es.map fun d => (d.task, d.flag, d.due, d.period)) ∧
         ∀ i, i ≠ n → t.teller.lists.getD i [] = s.teller.lists.getD i []) ∧
     (∀ (id : Nat) (e : Word64), mirroredClass (idClass id) = true → idReserved id = false → memWf s.ledger.mem = true →
       Runs (.escrowDelta id e) s fun t => memRead t.ledger.mem id = e
         ∧ (∀ i, i ≠ id → memRead t.ledger.mem i = memRead s.ledger.mem i)
         ∧ t = { s with
             par := counted 1, arb := s.arb.atOnce s.fclk 23
             ledger := { s.ledger with
               mem := t.ledger.mem, bad := s.ledger.bad.filter fun i => i != id, hits := t.ledger.hits
               misses := t.ledger.misses, lines := t.ledger.lines, fills := t.ledger.fills, wbuf := t.ledger.wbuf } }) ∧
     (∀ (id : Nat) (e : Word64), mirroredClass (idClass id) = true → idReserved id = true →
       exec (.escrowDelta id e) s = .next { s with
         par := counted 1, arb := s.arb.atOnce s.fclk 23, ledger := s.ledger.reservedAccess 23 id }) ∧
     (∀ (id : Nat) (e : Word64), mirroredClass (idClass id) = false →
       exec (.escrowDelta id e) s = .next { s with par := counted 1 }) ∧
     (∀ (p : Nat) (hs cs : List Word), p < s.ports.length →
       let ports := s.ports.set p ((s.port p).fromOther (hs.map fun w => w.toNat) (cs.map fun w => w.toNat))
       (s.cht.active = none → exec (.escrowPort p hs cs) s = .next { s with ports := ports, par := counted 1 }) ∧
       (∀ c, s.cht.active = some c → exec (.escrowPort p hs cs) s = .next { s with
         ports := ports
         par := if ({ s with ports := ports, par := counted 1 } : State).leadShortHere c p then
             { counted 1 with evt := setBit s.par.evt 11 } else counted 1 })) ∧
     (Runs (.escrowEnd (s.par.rxCount + 1)) s fun t =>
       t = { s with
         axes := t.axes
         par := if s.par.takeStep = .acked ∧ k + 1 = s.par.takeAt then
             { s.par with
               rxK := none, escrow := k, escrowValid := true, takeStep := .goSent, claimAt := some s.par.takeAt
               }.control 3 s.par.takeAt
           else { s.par with rxK := none, escrow := k, escrowValid := true } } ∧
       t.axes.length = s.axes.length ∧ ∀ a, a < s.axes.length →
         let off := field (entryValue (s.entryOf (sigId 1 a 0x37))) 1 0 = 1
         let o := s.escrowLast a
         t.axis a = { s.axis a with
           out0 := if off then 0 else s.page a 0x100, out1 := if off then 0 else s.page a 0x104
           run := { (s.axis a).run with tauOut := o.1, vdOut := o.2.1, vqOut := o.2.2 } }) ∧
     (∀ n, n ≠ s.par.rxCount + 1 → exec (.escrowEnd n) s = .next { s with par := { s.par with rxK := none } })) ∧
  (∀ (k e : Nat) (s : State),
     (s.heardEpoch ≤ e → e ≠ 0 → s.par.holds = false → s.par.role ≠ .seeking → s.par.claimAt = none →
       exec (.escrowBegin k e) s = .next { s with
         par := { s.heard e (some k) (s.par.leaseDue.getD s.par.lease) with rxK := some k, rxCount := 1 } }) ∧
     (∀ at1, s.heardEpoch ≤ e → e ≠ 0 → s.par.holds = false → s.par.role ≠ .seeking → s.par.claimAt = some at1 →
       s.par.takeStep ≠ .goSent → s.byNext (some k) = true → Runs (.escrowBegin k e) s fun t =>
         t = { s with
           dbk := if s.par.claim ≠ 0 then s.dbk.withdraw s.par.claim s.par.epochBefore else s.dbk
           par := { s.heard e (some k) (s.par.leaseDue.getD s.par.lease) with
             rxK := some k, rxCount := 1, takeStep := .none, claimAt := none, yields := false, claim := 0
             evt := setBit s.par.evt 2 } }) ∧
     (e < s.heardEpoch ∨ s.par.holds = true → exec (.escrowBegin k e) s = .next { s with
       par := { s.par with highest := max s.par.highest e } }))

/-- A standby on its timeline, with the mirror link or a port up, decides a takeover at t(k_r + 3), the renewals of the two
cycles after k_r missed: an epoch is claimed and the claim frame is that of cycle k_r + LEASE + 2, or the cycle in hand where
that is later (R369, R372, R373, R425); before that instant it decides none. A primary that seeks, with a link up, and hears
no holder claims one too, a secondary 100 ms after it entered SEEKING at the earliest (R365): in full service its claim frame
is that of the cycle in hand; before it, the unit becomes ACTIVE and holds the Warrant, its EPOCH record journalled where the
Daybook is ready. None before the lease heard last has lapsed, with the two renewals of a takeover (log 49). Nothing else
changes. A takeback (R377, R378). TAKEBACK_START begins one where its conditions stand and no inhibit does, the command
TAKEBACK in spite of the inhibit: an epoch is claimed, and the request, sent in a CONTROL frame, names a cycle at least 64
ahead (how far is a free value, log 51). A request is acknowledged, in a CONTROL frame, by the holder, or by a standby in sync
that then claims an epoch; an acknowledgement, GO and ABANDON move it on. The holder that hears GO before its deadline of the
cycle named yields from that cycle on, and runs nothing more where that cycle has come. RELINQUISH asks a standby with such a
request, or is refused with ABANDONED, always without a mirror link (whether the standby is in sync is a free value, log 51);
one by a unit that is not ACTIVE does nothing (R379). INHIBIT_SET and INHIBIT_CLR set and clear the inhibit. Nothing else
changes. -/
def Obligations.ClaimsAndTakeback : Prop :=
  (∀ s : State,
     let par := fun (e : Nat) => { s.par with epochBefore := s.dbk.epochAo, claim := e }
     let late := (s.cyc.tk : Int) + ((s.par.renew + 3 : Nat) - (s.cyc.k : Int)) * (s.period : Int) ≤ (s.time : Int)
     (s.par.role = .standby → s.par.claimAt = none → (s.par.link || s.lineUp) = true → s.par.gridSet = true →
       (late → Runs .takeoverDecide s fun t => s.fresh t.par.claim ∧ t = { s with
         dbk := s.claimed t.par.claim
         par := { par t.par.claim with
           claimAt := some (max s.cyc.k (s.par.renew + s.par.lease + 2)), takeStep := .none } }) ∧
       (¬late → exec .takeoverDecide s = .next s)) ∧
     (s.par.role ≠ .standby → exec .takeoverDecide s = .next s) ∧
     (∀ c, s.par.role = .seeking → s.par.claimAt = none → s.lapsed = true → s.cht.active = some c →
       (s.par.link || s.lineUp) = true →
       (s.par.unit = true → s.tim.now < s.par.seekSince + 100000000 → exec .seekClaim s = .next s) ∧
       (s.par.unit = false ∨ s.par.seekSince + 100000000 ≤ s.tim.now →
         (s.cyc.service = 2 → Runs .seekClaim s fun t => s.fresh t.par.claim ∧ t = { s with
           dbk := s.claimed t.par.claim, par := { par t.par.claim with claimAt := some s.cyc.k } }) ∧
         (s.cyc.service ≠ 2 → Runs .seekClaim s fun t => s.fresh t.par.claim ∧ t.par.role = .active ∧ t.par.holds = true
           ∧ t.par.epoch = t.par.claim ∧ t.par.highest = t.par.claim ∧ t.par.claimAt = some 0xFFFFFFFF
           ∧ t = { s with dbk := (s.claimed t.par.claim).epochsIn, par := t.par, tim := t.tim, teller := t.teller }))) ∧
     (s.par.role ≠ .seeking → exec .seekClaim s = .next s)) ∧
  (∀ (src : Source) (s : State),
     let begins := fun (i : Instr) => Runs i s fun t => s.fresh t.par.claim ∧ s.cyc.num + 64 ≤ t.par.takeAt ∧ t = { s with
       dbk := s.claimed t.par.claim, freeCount := s.freeCount + 1
       par := { s.par with
         epochBefore := s.dbk.epochAo, claim := t.par.claim, takeStep := .requested, takeAt := t.par.takeAt
         takeFrom := s.cyc.num }.control 1 t.par.takeAt }
     let goes := fun (i : Instr) (p : Par) => exec i s = .next { s with par := p }
     (s.mayTakeBack = true → begins (.takeback src) ∧ (s.par.inhibit = false → begins .takebackStart)) ∧
     (s.mayTakeBack = false → goes (.takeback src) s.par) ∧
     (s.mayTakeBack = false ∨ s.par.inhibit = true → goes .takebackStart s.par) ∧
     (∀ kt : Nat,
       (s.cyc.num < kt → s.par.takeStep = .none → s.par.role = .active →
         goes (.takebackRequest kt) ({ s.par with takeStep := .acked, takeAt := kt }.control 2 kt)) ∧
       (s.cyc.num < kt → s.par.takeStep = .none → s.par.role = .standby → s.par.sync = true → s.par.claimAt = none →
         Runs (.takebackRequest kt) s fun t => s.fresh t.par.claim ∧ t = { s with
           dbk := s.claimed t.par.claim
           par := { s.par with
             epochBefore := s.dbk.epochAo, claim := t.par.claim, takeStep := .acked, takeAt := kt, takeFrom := s.cyc.num
             }.control 2 kt }) ∧
       (kt ≤ s.cyc.num ∨ s.par.takeStep ≠ .none → goes (.takebackRequest kt) s.par)) ∧
     (s.par.takeStep = .requested ∨ s.par.takeStep = .asked → goes .takebackAck { s.par with takeStep := .acked }) ∧
     (s.par.takeStep ≠ .requested → s.par.takeStep ≠ .asked → goes .takebackAck s.par) ∧
     (s.par.holds = true → s.par.role = .active → s.par.takeStep = .acked → s.cyc.k < s.par.takeAt →
       goes .go { s.par with takeStep := .goHeard, yields := true }) ∧
     (s.par.holds = true → s.par.takeStep = .acked → s.cyc.k = s.par.takeAt → s.cyc.frozen = false → s.lanes.length = 16 →
       Runs .go s fun t => t.par = { s.par with takeStep := .goHeard, yields := true } ∧ t.passive = true
         ∧ (∀ n < 16, (t.lane n).job = none) ∧ t.teller.flows = [] ∧ t.pages = s.pages ∧ t.ledger = s.ledger ∧ t.ports = s.ports) ∧
     (s.par.holds = false ∨ s.par.takeStep ≠ .acked ∨ s.par.takeAt < s.cyc.k ∨ (s.cyc.k = s.par.takeAt ∧ s.cyc.frozen = true) →
       goes .go s.par) ∧
     (s.par.takeStep = .none → goes .abandon s.par) ∧
     (s.par.takeStep ≠ .none → exec .abandon s = .next { s with
       dbk := if s.par.holds = false ∧ s.par.claim ≠ 0 then s.dbk.withdraw s.par.claim s.par.epochBefore else s.dbk
       par := { s.par with
         takeStep := .none, claimAt := none, yields := false, claim := if s.par.holds then s.par.claim else 0
         evt := setBit s.par.evt 4 } }) ∧
     (s.par.role = .active → s.par.takeStep = .none → Runs (.relinquish src) s fun t =>
       t = { s with par := { s.par with evt := setBit s.par.evt 4 }, freeCount := s.freeCount + 2 } ∨
       (s.par.link = true ∧ s.cyc.num + 64 ≤ t.par.takeAt ∧ t = { s with
         freeCount := s.freeCount + 2
         par := { s.par with takeStep := .asked, takeAt := t.par.takeAt, takeFrom := s.cyc.num }.control 1 t.par.takeAt })) ∧
     (s.par.role ≠ .active ∨ s.par.takeStep ≠ .none → goes (.relinquish src) s.par) ∧
     goes (.inhibitSet src) { s.par with inhibit := true } ∧ goes (.inhibitClr src) { s.par with inhibit := false })

/-- Perturbations end, and every PTB_ register but PTB_EVT returns to its reset value, at a device reset, on PTB_CLEAR.ALL,
and at the clearing point of a swap whose incoming Charter does not unlock them, with CLEARED (R395); axis jobs that
back-pressure held then go on. A frame drop counts its COUNT down at each clearing point and, at 0, ends: MODE returns to 0,
in the register too unless it has been written since, and DROP_DONE is set; an episode counts its CYCLES down at each FCLK
edge, from its decision cycle on and unless it lasts until cleared, and, at 0, ends with BP_DONE (R395). Neither ends before.
When a drop and an episode count down is log 82. -/
def Obligations.Perturbations : Prop :=
  ∀ (src : Source) (s : State),
    let dropped := s.ptb.dropActs = true ∧ field s.ptb.dropA 23 16 = 0
    let eased := s.ptb.bpActs = true ∧ field s.ptb.bpA 27 8 = 0
    let clear := fun (evt : Word) => { Ptb.reset with evt := evt }
    let noJob := ∀ n, n < 16 → ∀ j, (s.lane n).job = some j → j.phase ≠ .stalled
    (s.unlocks s.cht.active = true →
      (Runs (.clearAll src) s fun t => t.ptb = clear s.ptb.evt) ∧
      (noJob → exec (.clearAll src) s = .next { s with ptb := clear s.ptb.evt })) ∧
    (s.clk.lock = true → s.clk.holdover = false → Runs .pllLockLoss s fun t => t.ptb = Ptb.reset) ∧
    (Runs .brownOut s fun t => t.ptb = Ptb.reset) ∧
    (∀ cause sel, Runs (.deviceReset cause sel) s fun t => t.ptb = Ptb.reset) ∧
    (∀ c new : Charter, s.cht.phase ≠ .toT0 → s.charter = some c → s.cyc.service = 2 → s.cyc.sampled = true →
      s.cht.stage = .armed → s.cht.swapAt.toNat = s.cyc.k → s.cht.staged = some new → s.unlocks (some new) = false →
      Runs .clearingPoint s fun t => t.ptb = clear (setBit s.ptb.evt 3)) ∧
    (∀ c : Charter, s.cht.phase ≠ .toT0 → s.charter = some c → s.cyc.service ≠ 0 → s.cyc.sampled = true → s.cht.stage ≠ .armed →
      s.ptb.dropW = false → field s.ptb.dropA 9 8 ≠ 0 → Runs .clearingPoint s fun t =>
        field t.ptb.dropA 23 16 = field s.ptb.dropA 23 16 - 1 ∧ t.ptb.dropActs = s.ptb.dropActs) ∧
    (s.pending = [] → (s.clk.lock || s.clk.holdover) = true → s.tim.edges % 2 = 1 → s.ptb.bpWait = false →
      field s.ptb.bpA 27 8 ≠ 0xFFFFF → ∃ t, step s = .next t ∧ t.ptb.bpActs = s.ptb.bpActs
        ∧ field t.ptb.bpA 27 8 = field s.ptb.bpA 27 8 - 1) ∧
    (dropped → exec .dropDone s = .next { s with ptb := { s.ptb with
      dropActs := false, dropA := s.ptb.dropA &&& ~~~0x300, evt := setBit s.ptb.evt 1
      drop := if s.ptb.dropW then s.ptb.drop else s.ptb.drop &&& ~~~0x300 } }) ∧
    (¬dropped → exec .dropDone s = .next s) ∧
    (eased → noJob → exec .bpDone s = .next { s with ptb := { s.ptb with bpActs := false, evt := setBit s.ptb.evt 2 } }) ∧
    (eased → Runs .bpDone s fun t => t.ptb = { s.ptb with bpActs := false, evt := setBit s.ptb.evt 2 }) ∧
    (¬eased → noJob → exec .bpDone s = .next s)

/-- A wave in hand ends with a verdict (R399, R400, R403, R444): PASS where its checks pass and every segment is done with the
count and signature that the ROM holds, FAIL where a check fails or a segment that is done with its count has a wrong
signature, INCOMPLETE otherwise; no segment of a wave 0 whose key RAM is not zero is done (R401). What it showed is kept. PASS
goes on to the next wave; after wave 1 the link engines run, where the signature of their image is valid, and the listen
begins (R19, R404 to R406); after wave 5 the device Assay is PASS, the DRAM found is that fitted, and the ASSAY record is
journalled; a device whose keys JTAG_LOCKOUT blocks is then released (R402, R404). Any other verdict ends self-test with it,
journalled too, the device unreleased, and with reason 2 for reduced service in waves 0 and 1 (R404, R408). The end by the
time limit is judged alike; with no wave in hand nothing happens. Nothing else changes. How the verdicts combine and when the
engines start is read so (logs 55, 96). -/
def Obligations.WavesEnd : Prop :=
  ∀ (segs : List SegResult) (m : WaveMeas) (s : State), ∀ c ∈ [Instr.waveEnd segs m, .waveTimeLimit segs m],
    let n := s.bst.wave
    let rom := s.bst.rom.getD n []
    let assays := segAssays rom (segsRun n segs m)
    let v := waveVerdict n assays m
    let u := s.waved n segs m
    (s.bst.running = false → exec c s = .next s) ∧
    (s.bst.running = true → n < s.bst.waves.length →
      (v = .pass → n = 0 ∨ n = 2 ∨ n = 3 ∨ n = 4 → exec c s = .next { u with bst := { u.bst with wave := n + 1 } }) ∧
      (v = .pass → n = 1 → exec c s = .next { u with bst := { u.bst with
        wave := 2, linkRun := s.bst.fwOk, listening := true, heard := false, holdSeen := true } }) ∧
      (v = .pass → n = 5 → s.srm.lockout = false ∨ s.bst.released = true → exec c s = .next { u with
        dramMib := m.dram0 + m.dram1, bst := { u.bst with running := false, verdict := .pass }
        dbk := s.dbk.write [u.assayOf .pass] }) ∧
      (v = .pass → n = 5 → s.srm.lockout = true → s.bst.released = false → Runs c s fun t =>
        t.bst.released = true ∧ t.bst.verdict = .pass ∧ t.bst.running = false ∧ t.dbk.ready = true ∧ t.dramMib = m.dram0 + m.dram1
          ∧ t.srm = u.srm ∧ t.bst.waves = u.bst.waves) ∧
      (v ≠ .pass → exec c s = .next { u with
        bst := { u.bst with
          running := false, verdict := v, evt := setBit u.bst.evt 2, rsvReason := if n ≤ 1 then 2 else s.bst.rsvReason }
        dbk := s.dbk.write [u.assayOf v] })) ∧
    (v = .pass ↔ checksOk m n = true ∧ ∀ a ∈ assays, a = .pass) ∧
    (v = .fail ↔ checksOk m n = false ∨ Verdict.fail ∈ assays) ∧
    (∀ i, i < segs.length →
      let r := segs.getD i { done := false, count := 0, sig := 0 }
      let e := rom.getD i (0, 0)
      let done := r.done = true ∧ r.count = e.1 ∧ (n = 0 → m.keyRamZero = true)
      (assays.getD i .none = .pass ↔ done ∧ r.sig = e.2) ∧ (assays.getD i .none = .fail ↔ done ∧ r.sig ≠ e.2))

/-- Key derivation after an Assay of PASS, without JTAG_LOCKOUT, puts the working keys, a free value, into the key RAM, sets
KEYS_READY and releases the device (R401, R404): SVC and APP0 to APP3 run where the signature of their image is valid, with
the application image copied to DRAM (R19, log 96); the Daybook is ready, with the region of the flash header, a free value
where none is known, and waiting EPOCH records are journalled (R425); VCORE goes by a first step of 10 mV from 800 mV towards
the setting of the Daybook, 750 mV without one, within 750 mV and VCORE_MAX, with a VOLTAGE record, and where it is there the
restore has ended (R417, R418; log 46); a recorded derating is asked for again (R34). In any other state KEYS_READY does
nothing. Of the JTAG instructions IDCODE answers always; BYPASS does nothing, and all others are BYPASS while JTAG_OPEN is 0;
a scan or boundary scan (log 86) then zeroises the key RAM, clears KEYS_READY and sets JTAG_LOCKOUT once, and releases a
device of PASS whose keys it blocks (R402, R404, R414). Nothing else changes. -/
def Obligations.KeysAndJtag : Prop :=
  ∀ s : State,
    let goal := max 750 (min s.ageing.vcoreMax (s.dbk.vcore.getD 750))
    let mv := if 800 < goal then min goal 810 else max goal 790
    let locked := { s.srm with keysReady := false, lockout := true, keyRam := none }
    let margin := BitVec.ofInt 32 s.age.margin
    let volt : DbkRec := { type := 4, stamp := s.stampNow, live := false
                           content := [800, BitVec.ofNat 32 mv, margin, margin] }
    (s.bst.verdict = .pass → s.srm.lockout = false → s.bst.released = false → Runs .keysReady s fun t =>
      let d := ({ s.dbk with ready := true, region := t.dbk.region } : Dbk).epochsIn
      (s.dbk.region ≠ 0 → t.dbk.region = s.dbk.region) ∧
      (s.dbk.region = 0 → 256 ≤ field t.dbk.region 15 0 ∧ field t.dbk.region 15 0 ≤ 1024) ∧
      (s.dbk.derated = true → t.clk.pending = some true) ∧
      t = { s with
        freeCount := s.freeCount + 2, srm := { s.srm with keysReady := true, keyRam := some s.freeCount }
        bst := { s.bst with released := true, evt := setBit s.bst.evt 1, svcRun := s.bst.fwOk, appRun := s.bst.fwOk }
        dram := if s.bst.fwOk then (s.dramPut 0x801000000 s.bst.image).dram else s.dram
        dbk := { d with pending := if goal = 800 then d.pending else d.pending ++ [volt] }
        age := { s.age with
          vcore := mv, restored := s.age.restored || goal == 800, planned := s.age.planned || s.dbk.derated }
        pmb := if goal = 800 then s.pmb else { s.pmb with vset := BitVec.ofNat 32 mv, verify := some mv }
        clk := if s.dbk.derated then { s.clk with derate := 1, pending := some true } else s.clk }) ∧
    (s.bst.verdict ≠ .pass ∨ s.srm.lockout = true ∨ s.bst.released = true → exec .keysReady s = .next s) ∧
    exec (.jtagInstruction .idcode) s = .next { s with readData := 0x0256054B } ∧
    exec (.jtagInstruction .bypass) s = .next s ∧
    (∀ i : JtagInstr, i = .scan ∨ i = .boundary →
      (s.srm.jtagOpen = false ∨ s.srm.lockout = true → exec (.jtagInstruction i) s = .next s) ∧
      (s.srm.jtagOpen = true → s.srm.lockout = false → s.bst.verdict ≠ .pass ∨ s.bst.released = true →
        exec (.jtagInstruction i) s = .next { s with srm := locked }) ∧
      (s.srm.jtagOpen = true → s.srm.lockout = false → s.bst.verdict = .pass → s.bst.released = false →
        Runs (.jtagInstruction i) s fun t => t.srm = locked ∧ t.bst.released = true ∧ t.dbk.ready = true ∧ t.cyc = s.cyc
          ∧ t.pages = s.pages ∧ t.ports = s.ports))

/-- The end of the listen (R406 to R408, R411): reduced service begins on a primary with a valid holding block that heard no
holder: an epoch is claimed and its Warrant held with a lease of 8, the role is SINGLE, four lanes are enabled, no Charter is
active, and t(0) is the next whole multiple of 250,000 ns (R425); the epoch is journalled where the Daybook is ready (log 40),
and a holding block is valid by its digest and format (log 57). Otherwise the listen is over and the reason is kept: 1 for a
secondary, 3 without a valid block, 4 for a holder heard, in this order (log 58). Where a service already runs the listen just
ends; where none is in hand nothing happens. -/
def Obligations.ListenEnds : Prop :=
  ∀ s : State,
    let ends := fun (n : Nat) => exec .listenEnd s = .next { s with bst := { s.bst with listening := false, rsvReason := n } }
    (s.bst.listening = false → exec .listenEnd s = .next s) ∧
    (∀ h, s.bst.listening = true → s.bst.hold = some h → h.digest = sha256 (bytesOf h.words) → h.format = 1 → s.par.unit = false →
      s.bst.heard = false →
      (s.cyc.service = 0 → s.cht.active = none → Runs .listenEnd s fun t =>
        t.cyc.service = 1 ∧ t.cyc.k = 0 ∧ t.cyc.tk % 250000 = 0 ∧ s.tim.now < t.cyc.tk ∧ t.cyc.tk ≤ s.tim.now + 250000
          ∧ t.teller.laneEn = 0xF ∧ s.fresh t.par.claim ∧ t.par.epoch = t.par.claim ∧ t.par.holds = true ∧ t.par.lease = 8
          ∧ t.par.role = .single ∧ t.dbk = (s.claimed t.par.claim).epochsIn ∧ t.cht.active = none ∧ t.srm = s.srm ∧ t.clk = s.clk
          ∧ t.bst = { s.bst with
            listening := false, holdC := some h.charter, rsvRunning := true, rsvReason := 0, rsvCycle := 0
            evt := setBit s.bst.evt 3 }) ∧
      (s.cyc.service ≠ 0 ∨ s.cht.active ≠ none → exec .listenEnd s = .next { s with bst := { s.bst with listening := false } })) ∧
    (s.bst.listening = true → s.par.unit = true → ends 1) ∧
    (s.bst.listening = true → s.par.unit = false → (∀ h, s.bst.hold = some h → h.digest ≠ sha256 (bytesOf h.words) ∨ h.format ≠ 1)
      → ends 3) ∧
    (∀ h, s.bst.listening = true → s.bst.hold = some h → h.digest = sha256 (bytesOf h.words) → h.format = 1 → s.par.unit = false →
      s.bst.heard = true → ends 4)

/-- Strongroom requests (R412, R413; what each word is and the order of the conditions are log 56): SUBMIT takes the 45 words
of the record while none is being checked, zeros where it does not lie in DRAM (log 56), and answers BUSY with REJECTED while
one is. A request that fails a condition leaves its result and REJECTED; an accepted one leaves result 0 and ACCEPTED, and
writes its key slot, marks it revoked, takes the authorisation, which stands beside earlier ones to the next reset, or opens
JTAG. With no request under check the answer does nothing. Nothing else changes. -/
def Obligations.StrongroomRequests : Prop :=
  ∀ (src : Source) (s : State),
    let q := s.srm.pendingReq
    let kind := field (q.getD 0 0) 7 0
    let n := field (q.getD 0 0) 9 8
    let at1 := s.srm.reqAddr.toNat
    (s.srm.busy = true → exec (.submit src) s = .next { s with srm := { s.srm with result := 8, evt := setBit s.srm.evt 1 } }) ∧
    (s.srm.busy = false → exec (.submit src) s = .next { s with srm := { s.srm with
      busy := true
      pendingReq := if s.dramOk at1 180 then (List.range 45).map fun i => s.dramWord (at1 + 4 * i) else List.replicate 45 0 } }) ∧
    (s.srm.busy = false → exec .strongroomAnswer s = .next s) ∧
    (s.srm.busy = true → s.srm.judge q ≠ 0 → exec .strongroomAnswer s = .next { s with srm := { s.srm with
      busy := false, pendingReq := [], result := s.srm.judge q, evt := setBit s.srm.evt 1 } }) ∧
    (s.srm.busy = true → s.srm.judge q = 0 →
      let r : Srm := { s.srm with busy := false, pendingReq := [], result := 0, evt := setBit s.srm.evt 0 }
      let gives := fun (r : Srm) => exec .strongroomAnswer s = .next { s with srm := r }
      1 ≤ kind ∧ kind ≤ 4 ∧
      (kind = 1 → gives { r with slots := putAt s.srm.slots n { st := 1, hash := bytesOf ((q.drop 4).take 8) } }) ∧
      (kind = 2 → gives { r with slots := setAt s.srm.slots n fun k => { k with st := 2 } }) ∧
      (kind = 3 → gives { r with authValid := true, authId := q.getD 1 0, auths := q.getD 1 0 :: s.srm.auths }) ∧
      (kind = 4 → gives { r with jtagOpen := true }))

/-- Monitor reads and the margin steps (R416 to R420): from release, once VCORE is restored, the slacks, ring oscillators and
eyes are taken and M is the least slack. While M is below the reserve and VCORE below VCORE_MAX, 10 mV more are sent, with
VCORE_STEP; M is measured again once that step is verified, with a VOLTAGE record, and the next step follows or step 1 ends
with the sensitivity (the instants: log 45). A port with link whose eye is low is re-tuned; derating falls due where M still
lacks the reserve. While step 1 is under way no read begins. READ_NOW asks for a read; SMBALERT# sets ALERT. PMBUS_VERIFY
keeps what was read, with STATUS_WORD (R422, R423): more than 5 mV away it sets VERIFY_FAIL and stops step 1; an answer not
acknowledged or with a wrong PEC sets its bit and gives no reading (log 46); a restore under way goes on, within 750 mV and
VCORE_MAX, with a VOLTAGE record each step (R417, R424). Nothing else changes. -/
def Obligations.MonitorsAndVcore : Prop :=
  ∀ s : State,
    let vmax := s.ageing.vcoreMax
    let reserve := s.ageing.reservePs
    let stepped := fun (vcore : Nat) => min vmax (vcore + 10)
    let judged := fun (t : State) =>
      t.age.derateDue = (decide (t.age.margin < reserve) && (decide (vmax ≤ t.age.vcore) || t.age.pmbStopped) && !s.clk.derated) ∧
      t.age.exhausted = decide (2 * t.age.margin < reserve)
    (∀ r : MonReading, s.bst.released = true → s.age.restored = true → s.age.raising = none →
      let m := leastSlack ((List.range 21).map fun i => r.slack.getD i 0)
      let read := fun (t : State) =>
        t.age.readReq = false ∧ t.age.margin = m ∧ t.age.rpl = ((List.range 21).map fun i => r.slack.getD i 0) ∧
        t.age.ro = ((List.range 48).map fun j => r.ro.getD j 0) ∧
        (∀ p, p < s.ports.length → p < 32 → (t.port p).eye = eyeWord (r.eyes.getD p (0, 0)))
      let raises := m < reserve ∧ s.age.vcore < vmax ∧ s.age.pmbStopped = false ∧ r.after ≠ [] ∧ 700 ≤ stepped s.age.vcore
        ∧ stepped s.age.vcore ≤ 850
      (¬raises → Runs (.monitorRead r) s fun t =>
        t = { s with ports := t.ports, age := t.age, dbk := { s.dbk with pending := t.dbk.pending }, clk := t.clk } ∧ read t ∧
          judged t ∧ t.age.vcore = s.age.vcore ∧ ∀ p, p < s.ports.length → p < 32 → (s.port p).linkUp = true →
            eyeLow (t.port p).eye = true → ∃ q ∈ t.age.retunes, q.rx = p) ∧
      (raises → Runs (.monitorRead r) s fun t =>
        t = { s with ports := t.ports, age := t.age, pmb := { s.pmb with
            vset := BitVec.ofNat 32 (stepped s.age.vcore), verify := some (stepped s.age.vcore) } } ∧ read t ∧
          t.age.vcore = stepped s.age.vcore ∧ t.age.evt = setBit s.age.evt 0 ∧
          t.age.raising = some { old := s.age.vcore, v0 := s.age.vcore, m0 := m, after := r.after })) ∧
    (∀ r : MonReading, s.bst.released = false ∨ s.age.restored = false ∨ s.age.raising.isSome = true →
      exec (.monitorRead r) s = .next s) ∧
    (∀ src : Source, exec (.readNow src) s = .next { s with age := { s.age with readReq := true } }) ∧
    exec .smbalert s = .next { s with pmb := { s.pmb with evt := setBit s.pmb.evt 2 } } ∧
    (∀ (v : Nat) (y : PmbReply), s.pmb.verify = none → exec (.pmbusVerify v y) s = .next s) ∧
    (∀ (mv v : Nat) (y : PmbReply), s.pmb.verify = some mv →
      let fail := decide (mv + 5 < v ∨ v + 5 < mv)
      let vread := BitVec.ofNat 32 (v % 1024 + y.iout % 65536 * 65536)
      let idle := s.bst.released = false ∨ s.age.restored = true
      (idle → s.age.raising = none → y.nack = false → y.pecErr = false → exec (.pmbusVerify v y) s = .next { s with
        pmb := { s.pmb with
          verify := none, vread := vread, status := y.status.setWidth 32
          evt := if fail then setBit s.pmb.evt 0 else s.pmb.evt }
        age := { s.age with pmbStopped := s.age.pmbStopped || fail } }) ∧
      (idle → s.age.raising = none → y.nack = true ∨ y.pecErr = true → exec (.pmbusVerify v y) s = .next { s with
        pmb := { s.pmb with verify := none, evt := setBit s.pmb.evt (if y.nack then 3 else 4) } }) ∧
      (∀ q : Raise, idle → s.age.raising = some q → y.nack = false → y.pecErr = false → Runs (.pmbusVerify v y) s fun t =>
        let m := q.after.headD s.age.margin
        let more := m < reserve ∧ s.age.vcore < vmax ∧ (s.age.pmbStopped || fail) = false ∧ 1 < q.after.length
          ∧ 700 ≤ stepped s.age.vcore ∧ stepped s.age.vcore ≤ 850
        t = { s with
            ports := t.ports, age := t.age, clk := t.clk, pmb := t.pmb
            dbk := { s.dbk with pending := t.dbk.pending, vcore := some s.age.vcore } } ∧
          t.pmb.vread = vread ∧ t.pmb.status = y.status.setWidth 32 ∧ (fail = true → bit t.pmb.evt 0 = true) ∧
          t.age.margin = m ∧ t.age.pmbStopped = (s.age.pmbStopped || fail) ∧
          (∃ e ∈ t.dbk.pending, e.type = 4 ∧ e.content = [BitVec.ofNat 32 q.old, BitVec.ofNat 32 s.age.vcore,
            BitVec.ofInt 32 s.age.margin, BitVec.ofInt 32 m]) ∧
          (more → t.age.vcore = stepped s.age.vcore ∧ t.pmb.verify = some (stepped s.age.vcore) ∧
            t.age.raising = some { q with old := s.age.vcore, after := q.after.drop 1 }) ∧
          (¬more → t.age.vcore = s.age.vcore ∧ t.pmb.verify = none ∧ t.age.raising = none ∧ judged t ∧
            (q.v0 < s.age.vcore → t.age.sens = lowBits 16 (crndDiv ((m - q.m0) * 100) (s.age.vcore - q.v0))))) ∧
      (s.bst.released = true → s.age.restored = false →
        let goal := max 750 (min vmax (s.dbk.vcore.getD 750))
        Runs (.pmbusVerify v y) s fun t =>
          t = { s with pmb := t.pmb, age := t.age, dbk := { s.dbk with pending := t.dbk.pending } } ∧
          (y.nack = false → y.pecErr = false → t.pmb.vread = vread ∧ (fail = true → bit t.pmb.evt 0 = true ∧ t.age.pmbStopped = true)) ∧
          (s.age.vcore = goal → t.age.restored = true ∧ t.age.vcore = goal ∧ t.pmb.verify = none ∧ t.dbk = s.dbk) ∧
          (∀ next, (s.age.vcore < goal ∧ next = min goal (s.age.vcore + 10)) ∨ (goal < s.age.vcore ∧ next = max goal (s.age.vcore - 10)) →
            700 ≤ next → next ≤ 850 → t.age.restored = false ∧ t.age.vcore = next ∧ t.pmb.verify = some next ∧
              t.dbk.pending = s.dbk.pending ++ [{
                type := 4, stamp := s.stampNow, live := false
                content := [BitVec.ofNat 32 s.age.vcore, BitVec.ofNat 32 next, BitVec.ofInt 32 s.age.margin,
                  BitVec.ofInt 32 s.age.margin] }])))

/-- Re-tuning, derating and the projection (R419 to R421): a trial's eye is kept and the code below the present one is tried
after that above it; after the last trial the re-tune leaves the list and the code of greatest HEIGHT, the earlier of equals,
stays with its eye, and a low eye is shown (log 47). Without a re-tune a trial's end does nothing. MAINT derates where
derating is due and permitted, sets DERATE_BLOCKED where it is due and not permitted, each with a DEVICE record, and otherwise
does nothing. A day's value of E is kept, the last 90; with fewer than 14 there is no projection and no warning. THERM_N goes
low above 150 °C and is released at 148 °C; GLB_TEMP shows the hottest sensor from release (R436; log 35). Nothing else
changes. The planner is log 45. -/
def Obligations.RetuneDerateProject : Prop :=
  ∀ s : State,
    (∀ h w : Nat, s.age.retunes = [] → exec (.retuneTrialEnd h w) s = .next s) ∧
    (∀ (q : Retune) (rest : List Retune) (e : Nat × Nat × Nat) (h w : Nat), s.age.retunes = q :: rest → q.trials = [e] → 0 < q.base →
      q.base < 31 → q.rx < 32 → exec (.retuneTrialEnd h w) s = .next { s with
        ports := s.ports.modify q.rx fun p => { p with eq := (p.eq &&& ~~~0x1F) ||| BitVec.ofNat 32 (q.base - 1) }
        age := { s.age with retunes := { q with trials := [e, (q.base + 1, h, w)] } :: rest } }) ∧
    (∀ (q : Retune) (rest : List Retune) (a b : Nat × Nat × Nat) (h w : Nat), s.age.retunes = q :: rest → q.trials = [a, b] →
      0 < q.base → q.base < 31 → q.rx < 32 → q.rx < s.ports.length → Runs (.retuneTrialEnd h w) s fun t =>
        let x := if a.2.1 < b.2.1 then b else a
        let best := if x.2.1 < h then (q.base - 1, h, w) else x
        let low := eyeLow (eyeWord best.2)
        t = { s with ports := t.ports, age := t.age, dbk := { s.dbk with pending := t.dbk.pending } } ∧
          (∀ p, p ≠ q.rx → t.port p = s.port p) ∧ t.age = { s.age with
            retunes := rest, evt := if low then setBit s.age.evt 6 else s.age.evt
            linkLow := if low then setBit s.age.linkLow q.rx else clearBit s.age.linkLow q.rx } ∧
          (t.port q.rx).eye = eyeWord best.2 ∧ field (t.port q.rx).eq 4 0 = best.1 % 32 ∧
          t.dbk.pending.length = s.dbk.pending.length + 1) ∧
    (∀ src : Source, s.age.derateDue = true →
      (s.ageing.permit = true → s.cht.activeSafe = true → Runs (.maint src) s fun t => t = { s with
        age := { s.age with overridden := false, planned := true }, clk := { s.clk with derate := 1, pending := some true }
        dbk := { s.dbk with pending := t.dbk.pending } } ∧ t.dbk.pending.length = s.dbk.pending.length + 1) ∧
      (s.ageing.permit = false ∨ s.cht.activeSafe = false → Runs (.maint src) s fun t => t = { s with
        age := { s.age with overridden := false, evt := setBit s.age.evt 3 }
        dbk := { s.dbk with pending := t.dbk.pending } } ∧ t.dbk.pending.length = s.dbk.pending.length + 1)) ∧
    (∀ src : Source, s.age.derateDue = false → exec (.maint src) s = .next s) ∧
    (s.bst.released = false ∨ s.age.restored = false → exec .dailyProjection s = .next s) ∧
    (s.bst.released = true → s.age.restored = true → Runs .dailyProjection s fun t =>
      t = { s with freeCount := s.freeCount + 1, age := { s.age with
        daily := t.age.daily, derateDays := t.age.derateDays, warn := t.age.warn, evt := t.age.evt } } ∧
      t.age.daily.getLast? = some (s.dbk.poh.toNat, s.equivMargin, s.tim.calSec.toNat) ∧ t.age.daily.length ≤ 90 ∧
      (s.age.daily.length < 90 → t.age.daily.dropLast = s.age.daily) ∧
      (t.age.warn = true ↔ t.age.derateDays ≠ 0xFFF ∧ t.age.derateDays ≤ s.ageing.warnDays) ∧
      t.age.evt = (if t.age.warn then setBit s.age.evt 5 else s.age.evt) ∧
      (s.age.daily.length < 13 → t.age.derateDays = 0xFFF)) ∧
    exec (.thermN []) s = .next s ∧
    (∀ ts : List Int, ts ≠ [] → ts.length ≤ 8 → Runs (.thermN ts) s fun t =>
      t = { s with glb := { s.glb with temp := t.glb.temp, thermLow := t.glb.thermLow } } ∧
      ((∃ x ∈ ts, 1500 < x) → t.glb.thermLow = true) ∧ ((∀ x ∈ ts, x ≤ 1480) → t.glb.thermLow = false) ∧
      ((∀ x ∈ ts, x ≤ 1500) → (∃ x ∈ ts, 1480 < x) → t.glb.thermLow = s.glb.thermLow) ∧
      (s.bst.released = false → t.glb.temp = s.glb.temp) ∧
      (s.bst.released = true → ∀ i, i < ts.length → (∀ j, j < ts.length → ts.getD j 0 ≤ ts.getD i 0) →
        (∀ j, j < i → ts.getD j 0 < ts.getD i 0) → t.glb.temp = BitVec.ofNat 32 (lowBits 16 (ts.getD i 0) + i * 65536)))

/-- Daybook commands, once the Daybook is ready (R424, R426 to R428); before, none has an effect. FLUSH writes to the journal
what is pending, with FLUSH_DONE, and what checkpoints and erasures that brings (log 38). EXPORT, while none is under way,
takes a snapshot of the journal with what is pending; EXPORT_COMPLETE copies its records to DBK_DST while they fit, with
EXPORT_DONE where all of them do and EXPORT_SHORT where not (their layout, and that whole records are copied: log 39), every
other byte as it was. CLOSE_AXIS puts the AXIS record of the axis of DBK_ARG aside and opens one with counts of 0, for the
same SERIAL (log 40). Once an hour what is pending, DEVICE, TJ_HIST and the record of every axis of the active Charter are
journalled. Nothing else changes. -/
def Obligations.DaybookCommands : Prop :=
  ∀ (src : Source) (s : State),
    let a := field s.dbk.arg 7 0
    (s.dbk.ready = false → ∀ i ∈ [Instr.flush src, .exportDaybook src, .closeAxis src, .daybookHourly], exec i s = .next s) ∧
    (s.dbk.ready = true → Runs (.flush src) s fun t =>
      t = { s with dbk := { s.dbk.flush with evt := setBit s.dbk.evt 2 } } ∧ t.dbk.pending = [] ∧
        ∀ r, s.dbk.pending.getLast? = some r → t.dbk.journal.getLast? = some r) ∧
    (s.dbk.ready = true → s.dbk.busy = false → exec (.exportDaybook src) s =
      .next { s with dbk := { s.dbk with busy := true, exporting := some s.dbk.flush.journal } }) ∧
    (s.dbk.busy = true → exec (.exportDaybook src) s = .next s) ∧
    (s.dbk.exporting = none → exec .exportComplete s = .next s) ∧
    (∀ rs, s.dbk.exporting = some rs →
      let w := fun (k : Nat) => (rs.take k).flatMap DbkRec.words
      let at1 := s.dbk.dst.toNat
      Runs .exportComplete s fun t =>
        (((w rs.length).length ≤ s.dbk.dstLen.toNat → s.dramOk at1 (4 * (w rs.length).length) = true → t.dbk.evt = setBit s.dbk.evt 0)) ∧
        ∃ k, k ≤ rs.length ∧ (w k).length ≤ s.dbk.dstLen.toNat ∧ t = { s with
            dram := (s.dramPut at1 (w k)).dram, glb := t.glb
            dbk := { s.dbk with
              busy := false, exporting := none, expLen := BitVec.ofNat 32 (w k).length
              evt := setBit s.dbk.evt (if k = rs.length then 0 else 1) } } ∧
          (k = rs.length → t.glb = s.glb) ∧
          (k < rs.length → s.dbk.dstLen.toNat < (w (k + 1)).length
            ∨ s.dramOk (at1 + 4 * (w k).length) (4 * ((w (k + 1)).length - (w k).length)) = false) ∧
          (∀ x, x < at1 ∨ at1 + 4 * (w k).length ≤ x → memRead t.dram x = memRead s.dram x)) ∧
    (s.dbk.ready = true → a < s.axes.length → Runs (.closeAxis src) s fun t =>
      t = { s with dbk := t.dbk, axes := t.axes } ∧ (∀ b, b ≠ a → t.axis b = s.axis b) ∧
      t.axis a = { s.axis a with travel := 0, reversals := 0, energised := 0, faults := List.replicate 7 0 } ∧
      t.dbk = { s.dbk with
        journal := t.dbk.journal
        pending := s.dbk.pending ++ [{ type := 7, stamp := s.stampNow, content := s.axisContent a, live := false }] } ∧
      (∀ r ∈ t.dbk.journal, r ∈ s.dbk.journal) ∧
      ∀ r ∈ s.dbk.journal, r ∈ t.dbk.journal ∨ (r.type = 7 ∧ r.live = true ∧ r.content.getD 0 0 = BitVec.ofNat 32 a)) ∧
    (s.dbk.ready = true → Runs .daybookHourly s fun t =>
      let now := fun (type : Nat) (content : List Word) =>
        ({ type := type, stamp := s.stampNow, live := true, content := content } : DbkRec)
      let device := now 1 (twoWords s.dbk.poh.toNat ++
        [BitVec.ofNat 32 s.dbk.powerCycles, BitVec.ofNat 32 s.dbk.brownOuts, BitVec.ofNat 32 s.age.vcore,
         if s.clk.derated then 1 else 0] ++ s.ports.map Port.eq ++ s.age.mirCtle.map (BitVec.ofNat 32))
      let hist := now 2 (s.dbk.tjHist.map fun n => BitVec.ofNat 32 (n / 60))
      let axes := match s.cht.active with
        | some c => c.axes.map fun r => now 7 (s.axisContent r.axis)
        | none => []
      t = { s with dbk := { s.dbk with pending := s.dbk.pending ++ [device, hist] ++ axes }.flush } ∧ t.dbk.pending = [] ∧
        device ∈ t.dbk.journal ∧ hist ∈ t.dbk.journal ∧
        ∀ c, s.cht.active = some c → (∀ r ∈ c.axes, r.axis < 256) → ∀ r ∈ c.axes, now 7 (s.axisContent r.axis) ∈ t.dbk.journal)

/-- Register accesses (R8 to R11, R453): GLB_SCRATCH takes a 32-bit write. A read of TIM_NOW_LO returns it and latches
TIM_NOW_HI of the same instant, which the next read of TIM_NOW_HI returns. An access of another width than a register has sets
its flag and does nothing else, a read returning 0; one to an address outside every block and memory likewise, and of a core
raises its access fault (R451, log 14). Where no flag stood before the PCLK cycle in hand the error is captured with its
address and source, of several of that cycle the lowest source; else the capture stays. An access by the host outside its
windows (R443) does nothing, and reads as 0. A write of a perturbation register but PTB_EVT that is not unlocked only sets
LOCKED_WRITE (R391). Reads leave their value in a field of the model (log 12). -/
def Obligations.RegisterAccess : Prop :=
  ∀ (src : Source) (s : State) (v : Word64),
    let flagged := fun (f : Nat) (write : Bool) (w : Width) (addr : Nat) =>
      let same := s.glb.errAt = s.tim.edges / 8
      let base := if same then s.glb.errBase else s.glb.accessErr
      let new := if same then s.glb.errNew else 0
      let word := BitVec.ofNat 32 (srcCode src + flagAt write 3 + widthCode w * 16 + f * 256 + 2 ^ 31)
      let best := if new = 0 ∨ srcCode src < field s.glb.errCap.2 2 0 then (BitVec.ofNat 64 addr, word) else s.glb.errCap
      { s.glb with
        errAt := s.tim.edges / 8, errBase := base, errNew := setBit new f, errCap := best
        accessErr := setBit s.glb.accessErr f
        accessAddr := if base = 0 then best.1 else s.glb.accessAddr
        accessSrc := if base = 0 then best.2 else s.glb.accessSrc }
    let nowhere := fun (g : Glb) (write : Bool) => { g with
      coreFault := if srcCode src < 5 then putAt g.coreFault (srcCode src) (some (write, 0x40080000)) else g.coreFault }
    (exec (.registerWrite src .w32 0x40000018 v) s = .next { s with glb := { s.glb with scratch := v.setWidth 32 } }) ∧
    (Runs (.pairLoRead src 0x40020000) s fun t => t = { s with glb := { s.glb with hiLatch := t.glb.hiLatch }, readData := t.readData } ∧
      t.readData = (BitVec.ofNat 32 s.tim.now).setWidth 64 ∧
      ∀ u : State, u.glb = t.glb → Runs (.pairLoRead src 0x40020004) u fun t' =>
        t' = { u with glb := { u.glb with hiLatch := t'.glb.hiLatch }, readData := t'.readData } ∧
        t'.readData = (BitVec.ofNat 32 (s.tim.now / 2 ^ 32)).setWidth 64) ∧
    (∀ w ∈ [Width.w8, .w16, .w64],
      exec (.refusedAccess src true w 0x40000018 v) s = .next { s with glb := flagged 0 true w 0x40000018 } ∧
      exec (.refusedAccess src false w 0x40000018 v) s = .next { s with glb := flagged 0 false w 0x40000018, readData := 0 }) ∧
    (∀ w : Width,
      exec (.refusedAccess src true w 0x40080000 v) s = .next { s with glb := nowhere (flagged 1 true w 0x40080000) true } ∧
      exec (.refusedAccess src false w 0x40080000 v) s =
        .next { s with glb := nowhere (flagged 1 false w 0x40080000) false, readData := 0 }) ∧
    (∀ (addr : Nat) (w : Width), s.inBar addr = false →
      exec (.registerWrite .host w addr v) s = .next s ∧ exec (.refusedAccess .host true w addr v) s = .next s ∧
      exec (.pairLoRead .host addr) s = .next { s with readData := 0 } ∧
      exec (.refusedAccess .host false w addr v) s = .next { s with readData := 0 }) ∧
    (s.unlocks s.cht.active = false →
      exec (.clearAll src) s = .next { s with ptb := { s.ptb with evt := setBit s.ptb.evt 0 } } ∧
      ∀ addr ∈ [0x401F0008, 0x401F0010, 0x401F0014, 0x401F0018, 0x401F001C],
        exec (.registerWrite src .w32 addr v) s = .next { s with ptb := { s.ptb with evt := setBit s.ptb.evt 0 } })
end

