-- ==== Sys2Proof/Laws/Memory.lean ====
section
/-!
SUPPORT. The sparse memories of State: a read after a write, and the canonical form that every memory operation keeps.
-/
namespace Sys2Proof.Machine
open Sys2Proof

/-- A key not above k reads as 0 in a memory above k. -/
theorem memRead_above {w : Nat} (m : Mem w) (k a : Nat) (h : memAbove k m = true) (ha : a ≤ k) : memRead m a = 0 := by
  induction m generalizing k with
  | nil => rfl
  | cons c t ih =>
    obtain ⟨b, x⟩ := c
    simp only [memAbove, Bool.and_eq_true, decide_eq_true_eq] at h
    have hne : a ≠ b := by omega
    simp only [memRead, if_neg hne]
    exact ih b h.2 (by omega)

/-- What stands above a key stands above any lower one. -/
theorem memAbove_le {w : Nat} {m : Mem w} {j k : Nat} (h : memAbove k m = true) (hj : j ≤ k) : memAbove j m = true := by
  cases m with
  | nil => rfl
  | cons c t =>
    obtain ⟨b, x⟩ := c
    simp only [memAbove, Bool.and_eq_true, decide_eq_true_eq] at h ⊢
    exact ⟨⟨by omega, h.1.2⟩, h.2⟩

/-- A memory above a key is in canonical form. -/
theorem memWf_of_above {w : Nat} {m : Mem w} {k : Nat} (h : memAbove k m = true) : memWf m = true := by
  cases m with
  | nil => rfl
  | cons c t =>
    obtain ⟨b, x⟩ := c
    simp only [memAbove, memWf, Bool.and_eq_true, decide_eq_true_eq] at h ⊢
    exact ⟨h.1.2, h.2⟩

/-- A write at a key above k keeps a memory above k. -/
theorem memAbove_memWrite {w : Nat} (m : Mem w) (k a : Nat) (v : BitVec w) (h : memAbove k m = true) (ha : k < a) :
    memAbove k (memWrite m a v) = true := by
  induction m generalizing k with
  | nil =>
    simp only [memWrite]
    split <;> simp_all [memAbove]
  | cons c t ih =>
    obtain ⟨b, x⟩ := c
    simp only [memAbove, Bool.and_eq_true, decide_eq_true_eq] at h
    simp only [memWrite]
    split
    · split <;> simp_all [memAbove]
    · split
      · rename_i h2
        split
        · exact memAbove_le h.2 (Nat.le_of_lt h.1.1)
        · simp_all [memAbove]
      · have := ih b h.2 (by omega)
        simp_all [memAbove]

/-- A write keeps the canonical form. -/
theorem memWf_memWrite {w : Nat} (m : Mem w) (a : Nat) (v : BitVec w) (h : memWf m = true) :
    memWf (memWrite m a v) = true := by
  cases m with
  | nil =>
    simp only [memWrite]
    split <;> simp_all [memWf, memAbove]
  | cons c t =>
    obtain ⟨b, x⟩ := c
    simp only [memWf, Bool.and_eq_true, decide_eq_true_eq] at h
    simp only [memWrite]
    split
    · split <;> simp_all [memWf, memAbove]
    · split
      · split
        · exact memWf_of_above h.2
        · simp_all [memWf]
      · have := memAbove_memWrite t b a v h.2 (by omega)
        simp_all [memWf]

/-- Writes of consecutive cells keep the canonical form. -/
theorem memWf_memWriteList {w : Nat} (m : Mem w) (a : Nat) (vs : List (BitVec w)) (h : memWf m = true) :
    memWf (memWriteList m a vs) = true := by
  induction vs generalizing m a with
  | nil => exact h
  | cons v vs ih => exact ih _ _ (memWf_memWrite m a v h)

/-- Cells left out of a memory leave its canonical form. -/
theorem memAbove_filter {w : Nat} (m : Mem w) (k : Nat) (p : Nat × BitVec w → Bool) (h : memAbove k m = true) :
    memAbove k (m.filter p) = true := by
  induction m generalizing k with
  | nil => rfl
  | cons c t ih =>
    obtain ⟨b, x⟩ := c
    simp only [memAbove, Bool.and_eq_true, decide_eq_true_eq] at h
    by_cases hp : p (b, x) = true
    · have h2 := ih b h.2
      simp_all [memAbove]
    · simp only [List.filter_cons, hp]
      exact ih k (memAbove_le h.2 (Nat.le_of_lt h.1.1))

/-- Cells left out of a memory leave its canonical form. -/
theorem memWf_filter {w : Nat} (m : Mem w) (p : Nat × BitVec w → Bool) (h : memWf m = true) :
    memWf (m.filter p) = true := by
  cases m with
  | nil => rfl
  | cons c t =>
    obtain ⟨b, x⟩ := c
    simp only [memWf, Bool.and_eq_true, decide_eq_true_eq] at h
    by_cases hp : p (b, x) = true
    · have h2 := memAbove_filter t b p h.2
      simp_all [memWf]
    · simp only [List.filter_cons, hp]
      exact memWf_of_above (memAbove_filter t b p h.2)

/-- The rest of a memory in canonical form is above its first key. -/
theorem memWf_cons {w : Nat} {b : Nat} {x : BitVec w} {t : Mem w} (h : memWf ((b, x) :: t) = true) :
    x ≠ 0 ∧ memAbove b t = true := by
  simpa only [memWf, Bool.and_eq_true, decide_eq_true_eq] using h

/-- A read at the key written gives the value written. -/
theorem memRead_memWrite_same {w : Nat} (m : Mem w) (a : Nat) (v : BitVec w) (h : memWf m = true) :
    memRead (memWrite m a v) a = v := by
  induction m with
  | nil =>
    simp only [memWrite]
    split
    · rename_i hv; rw [hv]; rfl
    · simp only [memRead, if_true]
  | cons c t ih =>
    obtain ⟨b, x⟩ := c
    obtain ⟨_, ht⟩ := memWf_cons h
    simp only [memWrite]
    split
    · rename_i h1
      split
      · rename_i hv
        rw [hv]
        simp only [memRead, if_neg (Nat.ne_of_lt h1)]
        exact memRead_above t b a ht (Nat.le_of_lt h1)
      · simp only [memRead, if_true]
    · split
      · rename_i h2
        split
        · rename_i hv
          rw [hv, h2]
          exact memRead_above t b b ht (Nat.le_refl b)
        · simp only [memRead, if_true]
      · rename_i h2
        simp only [memRead, if_neg h2]
        exact ih (memWf_of_above ht)

/-- A write leaves every other key as it was. -/
theorem memRead_memWrite_ne {w : Nat} (m : Mem w) (a b : Nat) (v : BitVec w) (h : b ≠ a) (hm : memWf m = true) :
    memRead (memWrite m a v) b = memRead m b := by
  induction m with
  | nil =>
    simp only [memWrite]
    split
    · rfl
    · simp only [memRead, if_neg h]
  | cons c t ih =>
    obtain ⟨c1, x⟩ := c
    obtain ⟨_, ht⟩ := memWf_cons hm
    simp only [memWrite]
    split
    · split
      · rfl
      · simp only [memRead, if_neg h]
    · split
      · rename_i h2
        have hc : b ≠ c1 := by omega
        split
        · simp only [memRead, if_neg hc]
        · simp only [memRead, if_neg h, if_neg hc]
      · simp only [memRead, ih (memWf_of_above ht)]

/-- Reading back consecutive cells outside a run of writes. -/
theorem memRead_memWriteList_ne {w : Nat} (m : Mem w) (a b : Nat) (vs : List (BitVec w)) (hm : memWf m = true)
    (h : b < a ∨ a + vs.length ≤ b) : memRead (memWriteList m a vs) b = memRead m b := by
  induction vs generalizing m a with
  | nil => rfl
  | cons v vs ih =>
    simp only [List.length_cons] at h
    have h1 : memRead (memWriteList (memWrite m a v) (a + 1) vs) b = memRead (memWrite m a v) b :=
      ih _ _ (memWf_memWrite m a v hm) (by omega)
    simp only [memWriteList, h1]
    exact memRead_memWrite_ne m a b v (by omega) hm

end Sys2Proof.Machine
end

