-- ==== Sys2Proof/Laws/Files.lean ====
section
/-!
SUPPORT. Laws of the register files: what a change of one lane, port, axis, station or position leaves of the others, and the
loops over them.
-/

set_option Elab.async false

namespace Sys2Proof.Laws

open Sys2Proof Sys2Proof.Machine

@[simp] theorem setAt_length {α : Type} (l : List α) (i : Nat) (f : α → α) : (setAt l i f).length = l.length := by
  simp [setAt]

@[simp] theorem putAt_length {α : Type} (l : List α) (i : Nat) (v : α) : (putAt l i v).length = l.length := by
  simp [putAt]

theorem getD_setAt_same {α : Type} {l : List α} {i : Nat} (f : α → α) (d : α) (h : i < l.length) :
    (setAt l i f).getD i d = f (l.getD i d) := by
  simp [setAt, List.getD_eq_getElem?_getD, h]

theorem getD_setAt_ne {α : Type} {l : List α} {i j : Nat} (f : α → α) (d : α) (h : i ≠ j) :
    (setAt l i f).getD j d = l.getD j d := by
  simp [setAt, List.getD_eq_getElem?_getD, h]

theorem getD_putAt_same {α : Type} {l : List α} {i : Nat} (v d : α) (h : i < l.length) : (putAt l i v).getD i d = v :=
  getD_setAt_same (fun _ => v) d h

theorem getD_putAt_ne {α : Type} {l : List α} {i j : Nat} (v d : α) (h : i ≠ j) : (putAt l i v).getD j d = l.getD j d :=
  getD_setAt_ne (fun _ => v) d h

theorem lane_mapLane_same {s : State} {n : Nat} (f : Lane → Lane) (h : n < s.lanes.length) :
    (s.mapLane n f).lane n = f (s.lane n) := getD_setAt_same f _ h

theorem lane_mapLane_ne {s : State} {n m : Nat} (f : Lane → Lane) (h : n ≠ m) : (s.mapLane n f).lane m = s.lane m :=
  getD_setAt_ne f _ h

theorem port_mapPort_same {s : State} {p : Nat} (f : Port → Port) (h : p < s.ports.length) :
    (s.mapPort p f).port p = f (s.port p) := getD_setAt_same f _ h

theorem port_mapPort_ne {s : State} {p q : Nat} (f : Port → Port) (h : p ≠ q) : (s.mapPort p f).port q = s.port q :=
  getD_setAt_ne f _ h

theorem axis_mapAxis_same {s : State} {a : Nat} (f : Axis → Axis) (h : a < s.axes.length) :
    (s.mapAxis a f).axis a = f (s.axis a) := getD_setAt_same f _ h

theorem axis_mapAxis_ne {s : State} {a b : Nat} (f : Axis → Axis) (h : a ≠ b) : (s.mapAxis a f).axis b = s.axis b :=
  getD_setAt_ne f _ h

theorem station_mapStation_same {s : State} {n : Nat} (f : Station → Station) (h : n < s.stations.length) :
    (s.mapStation n f).station n = f (s.station n) := getD_setAt_same f _ h

theorem station_mapStation_ne {s : State} {n m : Nat} (f : Station → Station) (h : n ≠ m) :
    (s.mapStation n f).station m = s.station m := getD_setAt_ne f _ h

theorem at_mapPos_same {s : State} {p n : Nat} (f : Position → Position) (h : p < s.ports.length)
    (hn : n - 1 < (s.port p).pos.length) : ((s.mapPos p n f).port p).at n = f ((s.port p).at n) := by
  unfold State.mapPos
  rw [port_mapPort_same _ h]
  exact getD_setAt_same f _ hn

/-- A word written to an axis page is read back there. -/
theorem page_setPage_same {s : State} (a off : Nat) (v : Word) (h : memWf s.pages = true) : (s.setPage a off v).page a off = v :=
  memRead_memWrite_same _ _ _ h

/-- A word written to an axis page leaves every other word of every page. -/
theorem page_setPage_ne {s : State} (a off b off' : Nat) (v : Word) (h : memWf s.pages = true) (hk : pageKey b off' ≠ pageKey a off) :
    (s.setPage a off v).page b off' = s.page b off' := memRead_memWrite_ne _ _ _ _ hk h

/-- A loop keeps what each of its steps keeps. -/
theorem forRange_keeps {σ : Type} {P : σ → Prop} {f : Nat → σ → σ} (hf : ∀ i x, P x → P (f i x)) :
    ∀ (n : Nat) (x : σ), P x → P (forRange n f x) := by
  intro n
  induction n with
  | zero => intro x hx; exact hx
  | succ n ih => intro x hx; exact hf n _ (ih x hx)

theorem forEach_keeps {α σ : Type} {P : σ → Prop} {f : α → σ → σ} {l : List α} (hf : ∀ a ∈ l, ∀ x, P x → P (f a x)) :
    ∀ x : σ, P x → P (forEach l f x) := by
  induction l with
  | nil => intro x hx; exact hx
  | cons a l ih =>
    intro x hx
    exact ih (fun b hb => hf b (List.mem_cons_of_mem a hb)) _ (hf a (List.mem_cons_self ..) x hx)

end Sys2Proof.Laws
end

