-- ==== Sys2Proof/Laws/Lanes.lean ====
section
/-!
SUPPORT. Laws of the lane's shared operations: what a parallel move reads and writes (R129, R130, R135), what a format P
instruction makes of its operation and its two moves (R133), and when an instruction issues (R106, R108).
-/

set_option Elab.async false

namespace Sys2Proof.Laws

open Sys2Proof Sys2Proof.Machine

/-- The fields of a lane that no move touches, put from another lane. -/
def withArith (m l : Lane) : Lane := { m with a := l.a, e := l.e, lflg := l.lflg, bxd := l.bxd, p := l.p }

/-- The register of a move is X, Y or N (R129). -/
theorem moveReg_cases (c : Nat) (h : c < 0x20) :
    (∃ i, i < 8 ∧ moveReg c = .x i) ∨ (∃ i, moveReg c = .y i) ∨ ∃ i, moveReg c = .n i := by
  unfold moveReg regOf
  by_cases h1 : c < 0x08
  · left; exact ⟨c, h1, by simp [h1]⟩
  · by_cases h2 : c < 0x18
    · right; left; exact ⟨c - 8, by simp [h1, h2]⟩
    · right; right; exact ⟨c - 0x18, by simp [h1, h2, show c < 0x28 by omega]⟩

theorem set_moveReg_withArith (c : Nat) (h : c < 0x20) (m l : Lane) (v : Int) :
    (withArith m l).set (moveReg c) v = withArith (m.set (moveReg c) v) l := by
  rcases moveReg_cases c h with ⟨i, _, e⟩ | ⟨i, e⟩ | ⟨i, e⟩ <;> rw [e] <;> rfl

theorem store_withArith (m l : Lane) (a : Nat) (w : Word) :
    (withArith m l).store a w = (m.store a w).map fun r => withArith r l := by
  unfold Lane.store withArith Lane.ground
  dsimp only
  repeat' split
  all_goals rfl

theorem storeWords_withArith (ws : List Word) : ∀ (m l : Lane) (a : Nat),
    (withArith m l).storeWords a ws = (m.storeWords a ws).map fun r => withArith r l := by
  induction ws with
  | nil => intro m l a; rfl
  | cons w ws ih =>
    intro m l a
    simp only [Lane.storeWords, store_withArith]
    cases m.store a w with
    | error e => rfl
    | ok r => exact ih r l (a + 4)

theorem moveOf_reg_lt (b : BitVec 20) : (moveOf b).reg < 32 := by
  simp only [moveOf, field]; omega

/-- A legal move commutes with a change of what no move touches. -/
theorem doMove_withArith (placed : List (Nat × Nat)) (f : MoveF) (agy : Bool) (old m l : Lane)
    (hr : f.reg < 32) (hl : f.legal = true) :
    doMove placed f agy old (withArith m l) = (doMove placed f agy old m).map fun r => withArith r l := by
  unfold doMove
  cases he : f.en
  · rfl
  · have hr1 : f.wide = true → f.reg + 1 < 32 := by
      intro h; simp [MoveF.legal, he, h] at hl; omega
    simp only [Bool.not_true, Bool.false_eq_true, if_false]
    generalize moveAddr f _ _ = p
    obtain ⟨a, nx⟩ := p
    dsimp only
    have hix : (if agy = true then (withArith m l).set (.iy f.idx) nx else (withArith m l).set (.ix f.idx) nx)
        = withArith (if agy = true then m.set (.iy f.idx) nx else m.set (.ix f.idx) nx) l := by cases agy <;> rfl
    rw [hix]
    generalize (if agy = true then m.set (.iy f.idx) nx else m.set (.ix f.idx) nx) = m1
    cases f.store
    · simp only [Bool.false_eq_true, if_false, Except.map]
      rw [set_moveReg_withArith _ hr]
      cases hw : f.wide
      · rfl
      · simp only [if_true]; rw [set_moveReg_withArith _ (hr1 hw)]
    · simp only [if_true]
      exact storeWords_withArith _ _ _ _

/-- A legal move leaves the accumulators, the E and P registers, LFLG and BXD. -/
theorem doMove_keeps {placed : List (Nat × Nat)} {f : MoveF} {agy : Bool} {old m r : Lane}
    (hr : f.reg < 32) (hl : f.legal = true) (h : doMove placed f agy old m = .ok r) : r = withArith r m := by
  have := doMove_withArith placed f agy old m m hr hl
  rw [show withArith m m = m from rfl, h] at this
  exact Except.ok.inj this

/-- A format P instruction whose operation changes only what no move touches: its two moves, then the operation's results. -/
theorem pRun_arith {placed : List (Nat × Nat)} {f : PFields} {dst : List Nat} {l a b l1 : Lane} {op : Lane → LaneRes Lane}
    (hmx : (moveOf f.mx).legal = true) (hmy : (moveOf f.my).legal = true)
    (hd : hasDup (dst ++ (moveOf f.mx).loads ++ (moveOf f.my).loads) = false)
    (ha : doMove placed (moveOf f.mx) false l l = .ok a) (hb : doMove placed (moveOf f.my) true l a = .ok b)
    (hop : op l = .ok l1) (hl1 : l1 = withArith l l1) :
    pRun placed f dst op l = .ok (withArith b l1).next := by
  unfold pRun
  simp only [hmx, hmy, hd, Bool.and_self, Bool.not_true, Bool.or_self, Bool.false_eq_true, if_false, hop, bind, Except.bind]
  rw [hl1, doMove_withArith _ _ _ _ _ _ (moveOf_reg_lt _) hmx, ha]
  simp only [Except.map]
  rw [doMove_withArith _ _ _ _ _ _ (moveOf_reg_lt _) hmy, hb]
  simp only [Except.map, pure, Except.pure]
  rw [← hl1]

/-- An instruction of a lane that issues, at an address of code RAM, changes that lane and nothing else. -/
theorem issue_ok {s : State} {n : Nat} {op : Lane → LaneRes Lane} {l' : Lane} (hi : (s.lane n).issues = true)
    (hp : (s.lane n).pc < 0x4000) (ho : op (s.lane n) = .ok l') : s.issue n op = s.mapLane n fun _ => l'.settle := by
  unfold State.issue
  have h1 : inRom (s.lane n).pc = false := by simp [inRom]; omega
  have h2 : fetchable (s.lane n).pc = true := by simp [fetchable]; omega
  simp [hi, h1, h2, ho]

/-- A lane that does not issue is left as it is. -/
theorem issue_none {s : State} {n : Nat} {op : Lane → LaneRes Lane} (hi : (s.lane n).issues = false) : s.issue n op = s := by
  unfold State.issue
  simp [hi]

theorem accList_eq {a : List (BitVec 80)} (h : a.length = 4) (g : Nat → BitVec 80) :
    putAt (putAt (putAt (putAt a 0 (g 0)) 1 (g 1)) 2 (g 2)) 3 (g 3) = (List.range 4).map g := by
  match a, h with
  | [_, _, _, _], _ => rfl

/-- The quad products put all four accumulators (R111). -/
theorem quadOp_eq {f : PFields} {l : Lane} (g : Int → Int → Int) (hy : f.ys < 4) (ha : l.a.length = 4) :
    quadOp f g l = .ok { l with
      a := (List.range 4).map fun i => BitVec.ofInt 80 (g (l.acc i) (l.get (.x f.xs) * l.get (.y (4 * f.ys + i)))) } := by
  have h0 : ¬ f.ys / 4 ≠ 0 := by omega
  have h1 : f.ys % 4 = f.ys := by omega
  unfold quadOp
  simp only [h0, if_false, h1, Except.ok.injEq]
  rw [← accList_eq ha]
  rfl

end Sys2Proof.Laws
end

