-- ==== Sys2Proof/Laws/PerInstr.lean ====
section
/-!
SUPPORT. Statements made once per command, as syntax: a well-formed command names a lane and a port that the device has.
-/
namespace Sys2Proof.Laws
open Sys2Proof

set_option Elab.async false

/-- A well-formed command names one of the 16 lanes and one of the 32 Tabna ports, where it names one. -/
def Wf.Statement (i : Instr) : Prop :=
  i.wellFormed = true → (∀ n, i.lane? = some n → n < 16) ∧ (∀ p, i.port? = some p → p < 32)

theorem Wf.registerWrite (src : Source) (width : Width) (addr : Nat) (value : Word64) : Wf.Statement (.registerWrite src width addr value) := by
  simp +contextual [Wf.Statement, Instr.wellFormed, Instr.lane?, Instr.port?]

theorem Wf.pairLoRead (src : Source) (addr : Nat) : Wf.Statement (.pairLoRead src addr) := by
  simp +contextual [Wf.Statement, Instr.wellFormed, Instr.lane?, Instr.port?]

theorem Wf.refLost : Wf.Statement (.refLost) := by
  simp +contextual [Wf.Statement, Instr.wellFormed, Instr.lane?, Instr.port?]

theorem Wf.holdoverLimit : Wf.Statement (.holdoverLimit) := by
  simp +contextual [Wf.Statement, Instr.wellFormed, Instr.lane?, Instr.port?]

theorem Wf.refBack : Wf.Statement (.refBack) := by
  simp +contextual [Wf.Statement, Instr.wellFormed, Instr.lane?, Instr.port?]

theorem Wf.pllLockLoss : Wf.Statement (.pllLockLoss) := by
  simp +contextual [Wf.Statement, Instr.wellFormed, Instr.lane?, Instr.port?]

theorem Wf.clkDerateWrite (src : Source) (value : Word) : Wf.Statement (.clkDerateWrite src value) := by
  simp +contextual [Wf.Statement, Instr.wellFormed, Instr.lane?, Instr.port?]

theorem Wf.derateIdleChange : Wf.Statement (.derateIdleChange) := by
  simp +contextual [Wf.Statement, Instr.wellFormed, Instr.lane?, Instr.port?]

theorem Wf.tick1us : Wf.Statement (.tick1us) := by
  simp +contextual [Wf.Statement, Instr.wellFormed, Instr.lane?, Instr.port?]

theorem Wf.plantStepWrite (src : Source) (value : Word) : Wf.Statement (.plantStepWrite src value) := by
  simp +contextual [Wf.Statement, Instr.wellFormed, Instr.lane?, Instr.port?]

theorem Wf.calendarSet (src : Source) (hi : Word) : Wf.Statement (.calendarSet src hi) := by
  simp +contextual [Wf.Statement, Instr.wellFormed, Instr.lane?, Instr.port?]

theorem Wf.calendarSetApply : Wf.Statement (.calendarSetApply) := by
  simp +contextual [Wf.Statement, Instr.wellFormed, Instr.lane?, Instr.port?]

theorem Wf.calendarSecond : Wf.Statement (.calendarSecond) := by
  simp +contextual [Wf.Statement, Instr.wellFormed, Instr.lane?, Instr.port?]

theorem Wf.capture (src : Source) : Wf.Statement (.capture src) := by
  simp +contextual [Wf.Statement, Instr.wellFormed, Instr.lane?, Instr.port?]

theorem Wf.captureDone : Wf.Statement (.captureDone) := by
  simp +contextual [Wf.Statement, Instr.wellFormed, Instr.lane?, Instr.port?]

theorem Wf.vbakLost : Wf.Statement (.vbakLost) := by
  simp +contextual [Wf.Statement, Instr.wellFormed, Instr.lane?, Instr.port?]

theorem Wf.brownOut : Wf.Statement (.brownOut) := by
  simp +contextual [Wf.Statement, Instr.wellFormed, Instr.lane?, Instr.port?]

theorem Wf.load (src : Source) : Wf.Statement (.load src) := by
  simp +contextual [Wf.Statement, Instr.wellFormed, Instr.lane?, Instr.port?]

theorem Wf.loadComplete : Wf.Statement (.loadComplete) := by
  simp +contextual [Wf.Statement, Instr.wellFormed, Instr.lane?, Instr.port?]

theorem Wf.discard (src : Source) : Wf.Statement (.discard src) := by
  simp +contextual [Wf.Statement, Instr.wellFormed, Instr.lane?, Instr.port?]

theorem Wf.start (src : Source) : Wf.Statement (.start src) := by
  simp +contextual [Wf.Statement, Instr.wellFormed, Instr.lane?, Instr.port?]

theorem Wf.arm (src : Source) : Wf.Statement (.arm src) := by
  simp +contextual [Wf.Statement, Instr.wellFormed, Instr.lane?, Instr.port?]

theorem Wf.disarm (src : Source) : Wf.Statement (.disarm src) := by
  simp +contextual [Wf.Statement, Instr.wellFormed, Instr.lane?, Instr.port?]

theorem Wf.localSample (gpio : Word) : Wf.Statement (.localSample gpio) := by
  simp +contextual [Wf.Statement, Instr.wellFormed, Instr.lane?, Instr.port?]

theorem Wf.localSampleEvent : Wf.Statement (.localSampleEvent) := by
  simp +contextual [Wf.Statement, Instr.wellFormed, Instr.lane?, Instr.port?]

theorem Wf.returnDue (port : Nat) : Wf.Statement (.returnDue port) := by
  simp +contextual [Wf.Statement, Instr.wellFormed, Instr.lane?, Instr.port?]

theorem Wf.deadline : Wf.Statement (.deadline) := by
  simp +contextual [Wf.Statement, Instr.wellFormed, Instr.lane?, Instr.port?]

theorem Wf.clearingPoint : Wf.Statement (.clearingPoint) := by
  simp +contextual [Wf.Statement, Instr.wellFormed, Instr.lane?, Instr.port?]

theorem Wf.issueLaunch (port : Nat) : Wf.Statement (.issueLaunch port) := by
  simp +contextual [Wf.Statement, Instr.wellFormed, Instr.lane?, Instr.port?]

theorem Wf.returnFrame (port : Nat) (frame : RetFrame) : Wf.Statement (.returnFrame port frame) := by
  simp +contextual [Wf.Statement, Instr.wellFormed, Instr.lane?, Instr.port?]

theorem Wf.linkAlign (rx : Receiver) : Wf.Statement (.linkAlign rx) := by
  simp +contextual [Wf.Statement, Instr.wellFormed, Instr.lane?, Instr.port?]

theorem Wf.linkLoss (rx : Receiver) : Wf.Statement (.linkLoss rx) := by
  simp +contextual [Wf.Statement, Instr.wellFormed, Instr.lane?, Instr.port?]

theorem Wf.slotAck (port : Nat) (station : Nat) (effective : Nat) : Wf.Statement (.slotAck port station effective) := by
  simp +contextual [Wf.Statement, Instr.wellFormed, Instr.lane?, Instr.port?]

theorem Wf.paramResp (port : Nat) (msg : Msg) : Wf.Statement (.paramResp port msg) := by
  simp +contextual [Wf.Statement, Instr.wellFormed, Instr.lane?, Instr.port?]

theorem Wf.acqData (port : Nat) (msg : Msg) : Wf.Statement (.acqData port msg) := by
  simp +contextual [Wf.Statement, Instr.wellFormed, Instr.lane?, Instr.port?]

theorem Wf.discoveryLaunch (port : Nat) : Wf.Statement (.discoveryLaunch port) := by
  simp +contextual [Wf.Statement, Instr.wellFormed, Instr.lane?, Instr.port?]

theorem Wf.discoveryReply (port : Nat) (reply : DiscReply) : Wf.Statement (.discoveryReply port reply) := by
  simp +contextual [Wf.Statement, Instr.wellFormed, Instr.lane?, Instr.port?]

theorem Wf.discoveryReplyLost (port : Nat) : Wf.Statement (.discoveryReplyLost port) := by
  simp +contextual [Wf.Statement, Instr.wellFormed, Instr.lane?, Instr.port?]

theorem Wf.timingComplete (port : Nat) (pos : Nat) : Wf.Statement (.timingComplete port pos) := by
  simp +contextual [Wf.Statement, Instr.wellFormed, Instr.lane?, Instr.port?]

theorem Wf.lockTimeout (port : Nat) (pos : Nat) : Wf.Statement (.lockTimeout port pos) := by
  simp +contextual [Wf.Statement, Instr.wellFormed, Instr.lane?, Instr.port?]

theorem Wf.effectiveReached (port : Nat) (pos : Nat) : Wf.Statement (.effectiveReached port pos) := by
  simp +contextual [Wf.Statement, Instr.wellFormed, Instr.lane?, Instr.port?]

theorem Wf.stationAbsent (port : Nat) (pos : Nat) : Wf.Statement (.stationAbsent port pos) := by
  simp +contextual [Wf.Statement, Instr.wellFormed, Instr.lane?, Instr.port?]

theorem Wf.toleranceDecay : Wf.Statement (.toleranceDecay) := by
  simp +contextual [Wf.Statement, Instr.wellFormed, Instr.lane?, Instr.port?]

theorem Wf.isolateNext (port : Nat) : Wf.Statement (.isolateNext port) := by
  simp +contextual [Wf.Statement, Instr.wellFormed, Instr.lane?, Instr.port?]

theorem Wf.retry (src : Source) : Wf.Statement (.retry src) := by
  simp +contextual [Wf.Statement, Instr.wellFormed, Instr.lane?, Instr.port?]

theorem Wf.stationSuspend (src : Source) : Wf.Statement (.stationSuspend src) := by
  simp +contextual [Wf.Statement, Instr.wellFormed, Instr.lane?, Instr.port?]

theorem Wf.unisolate (src : Source) : Wf.Statement (.unisolate src) := by
  simp +contextual [Wf.Statement, Instr.wellFormed, Instr.lane?, Instr.port?]

theorem Wf.nop (lane : Nat) (f : PFields) : Wf.Statement (.nop lane f) := by
  simp +contextual [Wf.Statement, Instr.wellFormed, Instr.lane?, Instr.port?]

theorem Wf.mpy4 (lane : Nat) (f : PFields) : Wf.Statement (.mpy4 lane f) := by
  simp +contextual [Wf.Statement, Instr.wellFormed, Instr.lane?, Instr.port?]

theorem Wf.mac4 (lane : Nat) (f : PFields) : Wf.Statement (.mac4 lane f) := by
  simp +contextual [Wf.Statement, Instr.wellFormed, Instr.lane?, Instr.port?]

theorem Wf.msu4 (lane : Nat) (f : PFields) : Wf.Statement (.msu4 lane f) := by
  simp +contextual [Wf.Statement, Instr.wellFormed, Instr.lane?, Instr.port?]

theorem Wf.mpy (lane : Nat) (f : PFields) : Wf.Statement (.mpy lane f) := by
  simp +contextual [Wf.Statement, Instr.wellFormed, Instr.lane?, Instr.port?]

theorem Wf.mac (lane : Nat) (f : PFields) : Wf.Statement (.mac lane f) := by
  simp +contextual [Wf.Statement, Instr.wellFormed, Instr.lane?, Instr.port?]

theorem Wf.msu (lane : Nat) (f : PFields) : Wf.Statement (.msu lane f) := by
  simp +contextual [Wf.Statement, Instr.wellFormed, Instr.lane?, Instr.port?]

theorem Wf.adl (lane : Nat) (f : PFields) : Wf.Statement (.adl lane f) := by
  simp +contextual [Wf.Statement, Instr.wellFormed, Instr.lane?, Instr.port?]

theorem Wf.adda (lane : Nat) (f : PFields) : Wf.Statement (.adda lane f) := by
  simp +contextual [Wf.Statement, Instr.wellFormed, Instr.lane?, Instr.port?]

theorem Wf.suba (lane : Nat) (f : PFields) : Wf.Statement (.suba lane f) := by
  simp +contextual [Wf.Statement, Instr.wellFormed, Instr.lane?, Instr.port?]

theorem Wf.nega (lane : Nat) (f : PFields) : Wf.Statement (.nega lane f) := by
  simp +contextual [Wf.Statement, Instr.wellFormed, Instr.lane?, Instr.port?]

theorem Wf.clra (lane : Nat) (f : PFields) : Wf.Statement (.clra lane f) := by
  simp +contextual [Wf.Statement, Instr.wellFormed, Instr.lane?, Instr.port?]

theorem Wf.sha (lane : Nat) (f : PFields) : Wf.Statement (.sha lane f) := by
  simp +contextual [Wf.Statement, Instr.wellFormed, Instr.lane?, Instr.port?]

theorem Wf.lda (lane : Nat) (f : PFields) : Wf.Statement (.lda lane f) := by
  simp +contextual [Wf.Statement, Instr.wellFormed, Instr.lane?, Instr.port?]

theorem Wf.shae (lane : Nat) (f : PFields) : Wf.Statement (.shae lane f) := by
  simp +contextual [Wf.Statement, Instr.wellFormed, Instr.lane?, Instr.port?]

theorem Wf.rnd (lane : Nat) (f : PFields) : Wf.Statement (.rnd lane f) := by
  simp +contextual [Wf.Statement, Instr.wellFormed, Instr.lane?, Instr.port?]

theorem Wf.rnde (lane : Nat) (f : PFields) : Wf.Statement (.rnde lane f) := by
  simp +contextual [Wf.Statement, Instr.wellFormed, Instr.lane?, Instr.port?]

theorem Wf.nrnd (lane : Nat) (f : PFields) : Wf.Statement (.nrnd lane f) := by
  simp +contextual [Wf.Statement, Instr.wellFormed, Instr.lane?, Instr.port?]

theorem Wf.expa (lane : Nat) (f : PFields) : Wf.Statement (.expa lane f) := by
  simp +contextual [Wf.Statement, Instr.wellFormed, Instr.lane?, Instr.port?]

theorem Wf.rsc (lane : Nat) (f : PFields) : Wf.Statement (.rsc lane f) := by
  simp +contextual [Wf.Statement, Instr.wellFormed, Instr.lane?, Instr.port?]

theorem Wf.bxclr (lane : Nat) (f : PFields) : Wf.Statement (.bxclr lane f) := by
  simp +contextual [Wf.Statement, Instr.wellFormed, Instr.lane?, Instr.port?]

theorem Wf.shlb (lane : Nat) (f : PFields) : Wf.Statement (.shlb lane f) := by
  simp +contextual [Wf.Statement, Instr.wellFormed, Instr.lane?, Instr.port?]

theorem Wf.li (lane : Nat) (f : IFields) : Wf.Statement (.li lane f) := by
  simp +contextual [Wf.Statement, Instr.wellFormed, Instr.lane?, Instr.port?]

theorem Wf.mov (lane : Nat) (f : IFields) : Wf.Statement (.mov lane f) := by
  simp +contextual [Wf.Statement, Instr.wellFormed, Instr.lane?, Instr.port?]

theorem Wf.addn (lane : Nat) (f : IFields) : Wf.Statement (.addn lane f) := by
  simp +contextual [Wf.Statement, Instr.wellFormed, Instr.lane?, Instr.port?]

theorem Wf.subn (lane : Nat) (f : IFields) : Wf.Statement (.subn lane f) := by
  simp +contextual [Wf.Statement, Instr.wellFormed, Instr.lane?, Instr.port?]

theorem Wf.andn (lane : Nat) (f : IFields) : Wf.Statement (.andn lane f) := by
  simp +contextual [Wf.Statement, Instr.wellFormed, Instr.lane?, Instr.port?]

theorem Wf.orn (lane : Nat) (f : IFields) : Wf.Statement (.orn lane f) := by
  simp +contextual [Wf.Statement, Instr.wellFormed, Instr.lane?, Instr.port?]

theorem Wf.xorn (lane : Nat) (f : IFields) : Wf.Statement (.xorn lane f) := by
  simp +contextual [Wf.Statement, Instr.wellFormed, Instr.lane?, Instr.port?]

theorem Wf.shln (lane : Nat) (f : IFields) : Wf.Statement (.shln lane f) := by
  simp +contextual [Wf.Statement, Instr.wellFormed, Instr.lane?, Instr.port?]

theorem Wf.sarn (lane : Nat) (f : IFields) : Wf.Statement (.sarn lane f) := by
  simp +contextual [Wf.Statement, Instr.wellFormed, Instr.lane?, Instr.port?]

theorem Wf.adde (lane : Nat) (f : IFields) : Wf.Statement (.adde lane f) := by
  simp +contextual [Wf.Statement, Instr.wellFormed, Instr.lane?, Instr.port?]

theorem Wf.imul (lane : Nat) (f : IFields) : Wf.Statement (.imul lane f) := by
  simp +contextual [Wf.Statement, Instr.wellFormed, Instr.lane?, Instr.port?]

theorem Wf.idiv (lane : Nat) (f : IFields) : Wf.Statement (.idiv lane f) := by
  simp +contextual [Wf.Statement, Instr.wellFormed, Instr.lane?, Instr.port?]

theorem Wf.mine (lane : Nat) (f : IFields) : Wf.Statement (.mine lane f) := by
  simp +contextual [Wf.Statement, Instr.wellFormed, Instr.lane?, Instr.port?]

theorem Wf.pld (lane : Nat) (f : IFields) : Wf.Statement (.pld lane f) := by
  simp +contextual [Wf.Statement, Instr.wellFormed, Instr.lane?, Instr.port?]

theorem Wf.pst (lane : Nat) (f : IFields) : Wf.Statement (.pst lane f) := by
  simp +contextual [Wf.Statement, Instr.wellFormed, Instr.lane?, Instr.port?]

theorem Wf.padd (lane : Nat) (f : IFields) : Wf.Statement (.padd lane f) := by
  simp +contextual [Wf.Statement, Instr.wellFormed, Instr.lane?, Instr.port?]

theorem Wf.psub (lane : Nat) (f : IFields) : Wf.Statement (.psub lane f) := by
  simp +contextual [Wf.Statement, Instr.wellFormed, Instr.lane?, Instr.port?]

theorem Wf.pext (lane : Nat) (f : IFields) : Wf.Statement (.pext lane f) := by
  simp +contextual [Wf.Statement, Instr.wellFormed, Instr.lane?, Instr.port?]

theorem Wf.pacc (lane : Nat) (f : IFields) : Wf.Statement (.pacc lane f) := by
  simp +contextual [Wf.Statement, Instr.wellFormed, Instr.lane?, Instr.port?]

theorem Wf.pbf (lane : Nat) (f : IFields) : Wf.Statement (.pbf lane f) := by
  simp +contextual [Wf.Statement, Instr.wellFormed, Instr.lane?, Instr.port?]

theorem Wf.lget (lane : Nat) (f : IFields) : Wf.Statement (.lget lane f) := by
  simp +contextual [Wf.Statement, Instr.wellFormed, Instr.lane?, Instr.port?]

theorem Wf.lgetu (lane : Nat) (f : IFields) : Wf.Statement (.lgetu lane f) := by
  simp +contextual [Wf.Statement, Instr.wellFormed, Instr.lane?, Instr.port?]

theorem Wf.lgetb (lane : Nat) (f : IFields) : Wf.Statement (.lgetb lane f) := by
  simp +contextual [Wf.Statement, Instr.wellFormed, Instr.lane?, Instr.port?]

theorem Wf.lgetbu (lane : Nat) (f : IFields) : Wf.Statement (.lgetbu lane f) := by
  simp +contextual [Wf.Statement, Instr.wellFormed, Instr.lane?, Instr.port?]

theorem Wf.ledgerReadComplete (lane : Nat) : Wf.Statement (.ledgerReadComplete lane) := by
  simp +contextual [Wf.Statement, Instr.wellFormed, Instr.lane?, Instr.port?]

theorem Wf.lput (lane : Nat) (f : IFields) : Wf.Statement (.lput lane f) := by
  simp +contextual [Wf.Statement, Instr.wellFormed, Instr.lane?, Instr.port?]

theorem Wf.bra (lane : Nat) (f : CFields) : Wf.Statement (.bra lane f) := by
  simp +contextual [Wf.Statement, Instr.wellFormed, Instr.lane?, Instr.port?]

theorem Wf.call (lane : Nat) (f : CFields) : Wf.Statement (.call lane f) := by
  simp +contextual [Wf.Statement, Instr.wellFormed, Instr.lane?, Instr.port?]

theorem Wf.callb (lane : Nat) (f : CFields) : Wf.Statement (.callb lane f) := by
  simp +contextual [Wf.Statement, Instr.wellFormed, Instr.lane?, Instr.port?]

theorem Wf.ret (lane : Nat) (f : CFields) : Wf.Statement (.ret lane f) := by
  simp +contextual [Wf.Statement, Instr.wellFormed, Instr.lane?, Instr.port?]

theorem Wf.rep (lane : Nat) (f : CFields) : Wf.Statement (.rep lane f) := by
  simp +contextual [Wf.Statement, Instr.wellFormed, Instr.lane?, Instr.port?]

theorem Wf.take (lane : Nat) : Wf.Statement (.take lane) := by
  simp +contextual [Wf.Statement, Instr.wellFormed, Instr.lane?, Instr.port?]

theorem Wf.done (lane : Nat) : Wf.Statement (.done lane) := by
  simp +contextual [Wf.Statement, Instr.wellFormed, Instr.lane?, Instr.port?]

theorem Wf.commitComplete (lane : Nat) : Wf.Statement (.commitComplete lane) := by
  simp +contextual [Wf.Statement, Instr.wellFormed, Instr.lane?, Instr.port?]

theorem Wf.stepPulse (pair : Nat) : Wf.Statement (.stepPulse pair) := by
  simp +contextual [Wf.Statement, Instr.wellFormed, Instr.lane?, Instr.port?]

theorem Wf.feedbackEdge (port : Nat) (levels : BitVec 3) (heldNs : Nat) : Wf.Statement (.feedbackEdge port levels heldNs) := by
  simp +contextual [Wf.Statement, Instr.wellFormed, Instr.lane?, Instr.port?]

theorem Wf.ssiTransfer (port : Nat) (ready : Bool) (bits : BitVec 40) (tailLow : Bool) : Wf.Statement (.ssiTransfer port ready bits tailLow) := by
  simp +contextual [Wf.Statement, Instr.wellFormed, Instr.lane?, Instr.port?]

theorem Wf.triggerInput (n : Nat) (level : Bool) (heldNs : Nat) : Wf.Statement (.triggerInput n level heldNs) := by
  simp +contextual [Wf.Statement, Instr.wellFormed, Instr.lane?, Instr.port?]

theorem Wf.compareArm (src : Source) (station : Bool) (unit : Nat) (reg : CmpReg) (value : Word) : Wf.Statement (.compareArm src station unit reg value) := by
  simp +contextual [Wf.Statement, Instr.wellFormed, Instr.lane?, Instr.port?]

theorem Wf.comparePulseEnd (unit : Nat) : Wf.Statement (.comparePulseEnd unit) := by
  simp +contextual [Wf.Statement, Instr.wellFormed, Instr.lane?, Instr.port?]

theorem Wf.overrateClear (src : Source) (which : OverrateOf) : Wf.Statement (.overrateClear src which) := by
  simp +contextual [Wf.Statement, Instr.wellFormed, Instr.lane?, Instr.port?]

theorem Wf.refLostClear (src : Source) : Wf.Statement (.refLostClear src) := by
  simp +contextual [Wf.Statement, Instr.wellFormed, Instr.lane?, Instr.port?]

theorem Wf.eventArrival : Wf.Statement (.eventArrival) := by
  simp +contextual [Wf.Statement, Instr.wellFormed, Instr.lane?, Instr.port?]

theorem Wf.handOff : Wf.Statement (.handOff) := by
  simp +contextual [Wf.Statement, Instr.wellFormed, Instr.lane?, Instr.port?]

theorem Wf.tlrTakeRead (src : Source) : Wf.Statement (.tlrTakeRead src) := by
  simp +contextual [Wf.Statement, Instr.wellFormed, Instr.lane?, Instr.port?]

theorem Wf.delayEntryFire : Wf.Statement (.delayEntryFire) := by
  simp +contextual [Wf.Statement, Instr.wellFormed, Instr.lane?, Instr.port?]

theorem Wf.insert (src : Source) : Wf.Statement (.insert src) := by
  simp +contextual [Wf.Statement, Instr.wellFormed, Instr.lane?, Instr.port?]

theorem Wf.cancel (src : Source) : Wf.Statement (.cancel src) := by
  simp +contextual [Wf.Statement, Instr.wellFormed, Instr.lane?, Instr.port?]

theorem Wf.suspend (src : Source) : Wf.Statement (.suspend src) := by
  simp +contextual [Wf.Statement, Instr.wellFormed, Instr.lane?, Instr.port?]

theorem Wf.resume (src : Source) : Wf.Statement (.resume src) := by
  simp +contextual [Wf.Statement, Instr.wellFormed, Instr.lane?, Instr.port?]

theorem Wf.setflags (src : Source) : Wf.Statement (.setflags src) := by
  simp +contextual [Wf.Statement, Instr.wellFormed, Instr.lane?, Instr.port?]

theorem Wf.clrflags (src : Source) : Wf.Statement (.clrflags src) := by
  simp +contextual [Wf.Statement, Instr.wellFormed, Instr.lane?, Instr.port?]

theorem Wf.softwareEvent (src : Source) (value : Word) : Wf.Statement (.softwareEvent src value) := by
  simp +contextual [Wf.Statement, Instr.wellFormed, Instr.lane?, Instr.port?]

theorem Wf.ledgerWindowRead (src : Source) (width : Width) (addr : Nat) : Wf.Statement (.ledgerWindowRead src width addr) := by
  simp +contextual [Wf.Statement, Instr.wellFormed, Instr.lane?, Instr.port?]

theorem Wf.ledgerWindowWrite (src : Source) (width : Width) (addr : Nat) (value : Word64) : Wf.Statement (.ledgerWindowWrite src width addr value) := by
  simp +contextual [Wf.Statement, Instr.wellFormed, Instr.lane?, Instr.port?]

theorem Wf.ledgerReady : Wf.Statement (.ledgerReady) := by
  simp +contextual [Wf.Statement, Instr.wellFormed, Instr.lane?, Instr.port?]

theorem Wf.requestEligible (req : Nat) : Wf.Statement (.requestEligible req) := by
  simp +contextual [Wf.Statement, Instr.wellFormed, Instr.lane?, Instr.port?]

theorem Wf.arbDecision : Wf.Statement (.arbDecision) := by
  simp +contextual [Wf.Statement, Instr.wellFormed, Instr.lane?, Instr.port?]

theorem Wf.promotion (req : Nat) : Wf.Statement (.promotion req) := by
  simp +contextual [Wf.Statement, Instr.wellFormed, Instr.lane?, Instr.port?]

theorem Wf.allowanceWindowEnd : Wf.Statement (.allowanceWindowEnd) := by
  simp +contextual [Wf.Statement, Instr.wellFormed, Instr.lane?, Instr.port?]

theorem Wf.transferComplete (ecc : List Ecc) : Wf.Statement (.transferComplete ecc) := by
  simp +contextual [Wf.Statement, Instr.wellFormed, Instr.lane?, Instr.port?]

theorem Wf.tallyClear (src : Source) (value : Word) : Wf.Statement (.tallyClear src value) := by
  simp +contextual [Wf.Statement, Instr.wellFormed, Instr.lane?, Instr.port?]

theorem Wf.dramAccessComplete : Wf.Statement (.dramAccessComplete) := by
  simp +contextual [Wf.Statement, Instr.wellFormed, Instr.lane?, Instr.port?]

theorem Wf.acqStart (src : Source) : Wf.Statement (.acqStart src) := by
  simp +contextual [Wf.Statement, Instr.wellFormed, Instr.lane?, Instr.port?]

theorem Wf.acqStop (src : Source) : Wf.Statement (.acqStop src) := by
  simp +contextual [Wf.Statement, Instr.wellFormed, Instr.lane?, Instr.port?]

theorem Wf.force (src : Source) : Wf.Statement (.force src) := by
  simp +contextual [Wf.Statement, Instr.wellFormed, Instr.lane?, Instr.port?]

theorem Wf.cal (src : Source) : Wf.Statement (.cal src) := by
  simp +contextual [Wf.Statement, Instr.wellFormed, Instr.lane?, Instr.port?]

theorem Wf.fastSample : Wf.Statement (.fastSample) := by
  simp +contextual [Wf.Statement, Instr.wellFormed, Instr.lane?, Instr.port?]

theorem Wf.calTimeout : Wf.Statement (.calTimeout) := by
  simp +contextual [Wf.Statement, Instr.wellFormed, Instr.lane?, Instr.port?]

theorem Wf.intervalEnd (fast : Bool) : Wf.Statement (.intervalEnd fast) := by
  simp +contextual [Wf.Statement, Instr.wellFormed, Instr.lane?, Instr.port?]

theorem Wf.bandwidthCheck : Wf.Statement (.bandwidthCheck) := by
  simp +contextual [Wf.Statement, Instr.wellFormed, Instr.lane?, Instr.port?]

theorem Wf.blockWritten : Wf.Statement (.blockWritten) := by
  simp +contextual [Wf.Statement, Instr.wellFormed, Instr.lane?, Instr.port?]

theorem Wf.uploadRingSet (src : Source) (addr : Nat) (value : Word) : Wf.Statement (.uploadRingSet src addr value) := by
  simp +contextual [Wf.Statement, Instr.wellFormed, Instr.lane?, Instr.port?]

theorem Wf.heartbeat (lane : Nat) (cycle : Nat) (heard : HbStamps) (sent : HbStamps) (ok : Bool) : Wf.Statement (.heartbeat lane cycle heard sent ok) := by
  simp +contextual [Wf.Statement, Instr.wellFormed, Instr.lane?, Instr.port?]

theorem Wf.escrowBegin (k : Nat) (epoch : Nat) : Wf.Statement (.escrowBegin k epoch) := by
  simp +contextual [Wf.Statement, Instr.wellFormed, Instr.lane?, Instr.port?]

theorem Wf.escrowLine (axis : Nat) (line : Nat) (words : List Word) : Wf.Statement (.escrowLine axis line words) := by
  simp +contextual [Wf.Statement, Instr.wellFormed, Instr.lane?, Instr.port?]

theorem Wf.escrowTask (task : Nat) (st : Nat) (flags : Word) : Wf.Statement (.escrowTask task st flags) := by
  simp +contextual [Wf.Statement, Instr.wellFormed, Instr.lane?, Instr.port?]

theorem Wf.escrowDelay (list : Nat) (entries : List DelayRec) : Wf.Statement (.escrowDelay list entries) := by
  simp +contextual [Wf.Statement, Instr.wellFormed, Instr.lane?, Instr.port?]

theorem Wf.escrowDelta (id : Nat) (entry : Word64) : Wf.Statement (.escrowDelta id entry) := by
  simp +contextual [Wf.Statement, Instr.wellFormed, Instr.lane?, Instr.port?]

theorem Wf.escrowPort (port : Nat) (hops : List Word) (cuts : List Word) : Wf.Statement (.escrowPort port hops cuts) := by
  simp +contextual [Wf.Statement, Instr.wellFormed, Instr.lane?, Instr.port?]

theorem Wf.escrowEnd (count : Nat) : Wf.Statement (.escrowEnd count) := by
  simp +contextual [Wf.Statement, Instr.wellFormed, Instr.lane?, Instr.port?]

theorem Wf.takebackRequest (kt : Nat) : Wf.Statement (.takebackRequest kt) := by
  simp +contextual [Wf.Statement, Instr.wellFormed, Instr.lane?, Instr.port?]

theorem Wf.takebackAck : Wf.Statement (.takebackAck) := by
  simp +contextual [Wf.Statement, Instr.wellFormed, Instr.lane?, Instr.port?]

theorem Wf.go : Wf.Statement (.go) := by
  simp +contextual [Wf.Statement, Instr.wellFormed, Instr.lane?, Instr.port?]

theorem Wf.abandon : Wf.Statement (.abandon) := by
  simp +contextual [Wf.Statement, Instr.wellFormed, Instr.lane?, Instr.port?]

theorem Wf.mirrorDown : Wf.Statement (.mirrorDown) := by
  simp +contextual [Wf.Statement, Instr.wellFormed, Instr.lane?, Instr.port?]

theorem Wf.mirrorUp : Wf.Statement (.mirrorUp) := by
  simp +contextual [Wf.Statement, Instr.wellFormed, Instr.lane?, Instr.port?]

theorem Wf.issueFrameReceive (port : Nat) (hdr : IssueHdr) : Wf.Statement (.issueFrameReceive port hdr) := by
  simp +contextual [Wf.Statement, Instr.wellFormed, Instr.lane?, Instr.port?]

theorem Wf.takeoverDecide : Wf.Statement (.takeoverDecide) := by
  simp +contextual [Wf.Statement, Instr.wellFormed, Instr.lane?, Instr.port?]

theorem Wf.seekClaim : Wf.Statement (.seekClaim) := by
  simp +contextual [Wf.Statement, Instr.wellFormed, Instr.lane?, Instr.port?]

theorem Wf.takebackStart : Wf.Statement (.takebackStart) := by
  simp +contextual [Wf.Statement, Instr.wellFormed, Instr.lane?, Instr.port?]

theorem Wf.takeback (src : Source) : Wf.Statement (.takeback src) := by
  simp +contextual [Wf.Statement, Instr.wellFormed, Instr.lane?, Instr.port?]

theorem Wf.relinquish (src : Source) : Wf.Statement (.relinquish src) := by
  simp +contextual [Wf.Statement, Instr.wellFormed, Instr.lane?, Instr.port?]

theorem Wf.inhibitSet (src : Source) : Wf.Statement (.inhibitSet src) := by
  simp +contextual [Wf.Statement, Instr.wellFormed, Instr.lane?, Instr.port?]

theorem Wf.inhibitClr (src : Source) : Wf.Statement (.inhibitClr src) := by
  simp +contextual [Wf.Statement, Instr.wellFormed, Instr.lane?, Instr.port?]

theorem Wf.clearAll (src : Source) : Wf.Statement (.clearAll src) := by
  simp +contextual [Wf.Statement, Instr.wellFormed, Instr.lane?, Instr.port?]

theorem Wf.dropDone : Wf.Statement (.dropDone) := by
  simp +contextual [Wf.Statement, Instr.wellFormed, Instr.lane?, Instr.port?]

theorem Wf.bpDone : Wf.Statement (.bpDone) := by
  simp +contextual [Wf.Statement, Instr.wellFormed, Instr.lane?, Instr.port?]

theorem Wf.deviceReset (cause : ResetCause) (pairsel : Bool) : Wf.Statement (.deviceReset cause pairsel) := by
  simp +contextual [Wf.Statement, Instr.wellFormed, Instr.lane?, Instr.port?]

theorem Wf.pllLock : Wf.Statement (.pllLock) := by
  simp +contextual [Wf.Statement, Instr.wellFormed, Instr.lane?, Instr.port?]

theorem Wf.waveEnd (segs : List SegResult) (meas : WaveMeas) : Wf.Statement (.waveEnd segs meas) := by
  simp +contextual [Wf.Statement, Instr.wellFormed, Instr.lane?, Instr.port?]

theorem Wf.waveTimeLimit (segs : List SegResult) (meas : WaveMeas) : Wf.Statement (.waveTimeLimit segs meas) := by
  simp +contextual [Wf.Statement, Instr.wellFormed, Instr.lane?, Instr.port?]

theorem Wf.keysReady : Wf.Statement (.keysReady) := by
  simp +contextual [Wf.Statement, Instr.wellFormed, Instr.lane?, Instr.port?]

theorem Wf.jtagInstruction (code : JtagInstr) : Wf.Statement (.jtagInstruction code) := by
  simp +contextual [Wf.Statement, Instr.wellFormed, Instr.lane?, Instr.port?]

theorem Wf.listenEnd : Wf.Statement (.listenEnd) := by
  simp +contextual [Wf.Statement, Instr.wellFormed, Instr.lane?, Instr.port?]

theorem Wf.lastReducedApply : Wf.Statement (.lastReducedApply) := by
  simp +contextual [Wf.Statement, Instr.wellFormed, Instr.lane?, Instr.port?]

theorem Wf.fullServiceBegin : Wf.Statement (.fullServiceBegin) := by
  simp +contextual [Wf.Statement, Instr.wellFormed, Instr.lane?, Instr.port?]

theorem Wf.submit (src : Source) : Wf.Statement (.submit src) := by
  simp +contextual [Wf.Statement, Instr.wellFormed, Instr.lane?, Instr.port?]

theorem Wf.strongroomAnswer : Wf.Statement (.strongroomAnswer) := by
  simp +contextual [Wf.Statement, Instr.wellFormed, Instr.lane?, Instr.port?]

theorem Wf.monitorRead (r : MonReading) : Wf.Statement (.monitorRead r) := by
  simp +contextual [Wf.Statement, Instr.wellFormed, Instr.lane?, Instr.port?]

theorem Wf.readNow (src : Source) : Wf.Statement (.readNow src) := by
  simp +contextual [Wf.Statement, Instr.wellFormed, Instr.lane?, Instr.port?]

theorem Wf.maint (src : Source) : Wf.Statement (.maint src) := by
  simp +contextual [Wf.Statement, Instr.wellFormed, Instr.lane?, Instr.port?]

theorem Wf.retuneTrialEnd (height : Nat) (width : Nat) : Wf.Statement (.retuneTrialEnd height width) := by
  simp +contextual [Wf.Statement, Instr.wellFormed, Instr.lane?, Instr.port?]

theorem Wf.dailyProjection : Wf.Statement (.dailyProjection) := by
  simp +contextual [Wf.Statement, Instr.wellFormed, Instr.lane?, Instr.port?]

theorem Wf.pmbusVerify (readMv : Nat) (reply : PmbReply) : Wf.Statement (.pmbusVerify readMv reply) := by
  simp +contextual [Wf.Statement, Instr.wellFormed, Instr.lane?, Instr.port?]

theorem Wf.smbalert : Wf.Statement (.smbalert) := by
  simp +contextual [Wf.Statement, Instr.wellFormed, Instr.lane?, Instr.port?]

theorem Wf.exportDaybook (src : Source) : Wf.Statement (.exportDaybook src) := by
  simp +contextual [Wf.Statement, Instr.wellFormed, Instr.lane?, Instr.port?]

theorem Wf.exportComplete : Wf.Statement (.exportComplete) := by
  simp +contextual [Wf.Statement, Instr.wellFormed, Instr.lane?, Instr.port?]

theorem Wf.flush (src : Source) : Wf.Statement (.flush src) := by
  simp +contextual [Wf.Statement, Instr.wellFormed, Instr.lane?, Instr.port?]

theorem Wf.closeAxis (src : Source) : Wf.Statement (.closeAxis src) := by
  simp +contextual [Wf.Statement, Instr.wellFormed, Instr.lane?, Instr.port?]

theorem Wf.daybookHourly : Wf.Statement (.daybookHourly) := by
  simp +contextual [Wf.Statement, Instr.wellFormed, Instr.lane?, Instr.port?]

theorem Wf.thermN (temps : List Int) : Wf.Statement (.thermN temps) := by
  simp +contextual [Wf.Statement, Instr.wellFormed, Instr.lane?, Instr.port?]

theorem Wf.refclkReturn : Wf.Statement (.refclkReturn) := by
  simp +contextual [Wf.Statement, Instr.wellFormed, Instr.lane?, Instr.port?]

theorem Wf.vbakRestore : Wf.Statement (.vbakRestore) := by
  simp +contextual [Wf.Statement, Instr.wellFormed, Instr.lane?, Instr.port?]

theorem Wf.resetRelease : Wf.Statement (.resetRelease) := by
  simp +contextual [Wf.Statement, Instr.wellFormed, Instr.lane?, Instr.port?]

theorem Wf.refusedAccess (src : Source) (write : Bool) (width : Width) (addr : Nat) (value : Word64) : Wf.Statement (.refusedAccess src write width addr value) := by
  simp +contextual [Wf.Statement, Instr.wellFormed, Instr.lane?, Instr.port?]

theorem Wf.stepPulseEnd (pair : Nat) : Wf.Statement (.stepPulseEnd pair) := by
  simp +contextual [Wf.Statement, Instr.wellFormed, Instr.lane?, Instr.port?]

theorem Wf.ainConversionDone (n : Nat) (microvolts : Int) : Wf.Statement (.ainConversionDone n microvolts) := by
  simp +contextual [Wf.Statement, Instr.wellFormed, Instr.lane?, Instr.port?]

end Sys2Proof.Laws
end

