-- ==== Sys2Proof/Laws/State.lean ====
section
/-!
SUPPORT. One lemma for each field of State under each named update of a block or a unit, each true by unfolding.
-/
namespace Sys2Proof.Machine
open Sys2Proof

@[simp] theorem State.mapGlb_pending (s : State) (f : Glb → Glb) : (s.mapGlb f).pending = s.pending := rfl
@[simp] theorem State.mapGlb_readData (s : State) (f : Glb → Glb) : (s.mapGlb f).readData = s.readData := rfl
@[simp] theorem State.mapGlb_freeCount (s : State) (f : Glb → Glb) : (s.mapGlb f).freeCount = s.freeCount := rfl
@[simp] theorem State.mapGlb_dramMib (s : State) (f : Glb → Glb) : (s.mapGlb f).dramMib = s.dramMib := rfl
@[simp] theorem State.mapGlb_dram (s : State) (f : Glb → Glb) : (s.mapGlb f).dram = s.dram := rfl
@[simp] theorem State.mapGlb_glb (s : State) (f : Glb → Glb) : (s.mapGlb f).glb = f s.glb := rfl
@[simp] theorem State.mapGlb_clk (s : State) (f : Glb → Glb) : (s.mapGlb f).clk = s.clk := rfl
@[simp] theorem State.mapGlb_tim (s : State) (f : Glb → Glb) : (s.mapGlb f).tim = s.tim := rfl
@[simp] theorem State.mapGlb_cht (s : State) (f : Glb → Glb) : (s.mapGlb f).cht = s.cht := rfl
@[simp] theorem State.mapGlb_cyc (s : State) (f : Glb → Glb) : (s.mapGlb f).cyc = s.cyc := rfl
@[simp] theorem State.mapGlb_pages (s : State) (f : Glb → Glb) : (s.mapGlb f).pages = s.pages := rfl
@[simp] theorem State.mapGlb_axes (s : State) (f : Glb → Glb) : (s.mapGlb f).axes = s.axes := rfl
@[simp] theorem State.mapGlb_code (s : State) (f : Glb → Glb) : (s.mapGlb f).code = s.code := rfl
@[simp] theorem State.mapGlb_lanes (s : State) (f : Glb → Glb) : (s.mapGlb f).lanes = s.lanes := rfl
@[simp] theorem State.mapGlb_teller (s : State) (f : Glb → Glb) : (s.mapGlb f).teller = s.teller := rfl
@[simp] theorem State.mapGlb_ledger (s : State) (f : Glb → Glb) : (s.mapGlb f).ledger = s.ledger := rfl
@[simp] theorem State.mapGlb_arb (s : State) (f : Glb → Glb) : (s.mapGlb f).arb = s.arb := rfl
@[simp] theorem State.mapGlb_ports (s : State) (f : Glb → Glb) : (s.mapGlb f).ports = s.ports := rfl
@[simp] theorem State.mapGlb_stations (s : State) (f : Glb → Glb) : (s.mapGlb f).stations = s.stations := rfl
@[simp] theorem State.mapGlb_dsc (s : State) (f : Glb → Glb) : (s.mapGlb f).dsc = s.dsc := rfl
@[simp] theorem State.mapGlb_io (s : State) (f : Glb → Glb) : (s.mapGlb f).io = s.io := rfl
@[simp] theorem State.mapGlb_acq (s : State) (f : Glb → Glb) : (s.mapGlb f).acq = s.acq := rfl
@[simp] theorem State.mapGlb_par (s : State) (f : Glb → Glb) : (s.mapGlb f).par = s.par := rfl
@[simp] theorem State.mapGlb_ptb (s : State) (f : Glb → Glb) : (s.mapGlb f).ptb = s.ptb := rfl
@[simp] theorem State.mapGlb_bst (s : State) (f : Glb → Glb) : (s.mapGlb f).bst = s.bst := rfl
@[simp] theorem State.mapGlb_srm (s : State) (f : Glb → Glb) : (s.mapGlb f).srm = s.srm := rfl
@[simp] theorem State.mapGlb_age (s : State) (f : Glb → Glb) : (s.mapGlb f).age = s.age := rfl
@[simp] theorem State.mapGlb_pmb (s : State) (f : Glb → Glb) : (s.mapGlb f).pmb = s.pmb := rfl
@[simp] theorem State.mapGlb_dbk (s : State) (f : Glb → Glb) : (s.mapGlb f).dbk = s.dbk := rfl

@[simp] theorem State.mapClk_pending (s : State) (f : Clk → Clk) : (s.mapClk f).pending = s.pending := rfl
@[simp] theorem State.mapClk_readData (s : State) (f : Clk → Clk) : (s.mapClk f).readData = s.readData := rfl
@[simp] theorem State.mapClk_freeCount (s : State) (f : Clk → Clk) : (s.mapClk f).freeCount = s.freeCount := rfl
@[simp] theorem State.mapClk_dramMib (s : State) (f : Clk → Clk) : (s.mapClk f).dramMib = s.dramMib := rfl
@[simp] theorem State.mapClk_dram (s : State) (f : Clk → Clk) : (s.mapClk f).dram = s.dram := rfl
@[simp] theorem State.mapClk_glb (s : State) (f : Clk → Clk) : (s.mapClk f).glb = s.glb := rfl
@[simp] theorem State.mapClk_clk (s : State) (f : Clk → Clk) : (s.mapClk f).clk = f s.clk := rfl
@[simp] theorem State.mapClk_tim (s : State) (f : Clk → Clk) : (s.mapClk f).tim = s.tim := rfl
@[simp] theorem State.mapClk_cht (s : State) (f : Clk → Clk) : (s.mapClk f).cht = s.cht := rfl
@[simp] theorem State.mapClk_cyc (s : State) (f : Clk → Clk) : (s.mapClk f).cyc = s.cyc := rfl
@[simp] theorem State.mapClk_pages (s : State) (f : Clk → Clk) : (s.mapClk f).pages = s.pages := rfl
@[simp] theorem State.mapClk_axes (s : State) (f : Clk → Clk) : (s.mapClk f).axes = s.axes := rfl
@[simp] theorem State.mapClk_code (s : State) (f : Clk → Clk) : (s.mapClk f).code = s.code := rfl
@[simp] theorem State.mapClk_lanes (s : State) (f : Clk → Clk) : (s.mapClk f).lanes = s.lanes := rfl
@[simp] theorem State.mapClk_teller (s : State) (f : Clk → Clk) : (s.mapClk f).teller = s.teller := rfl
@[simp] theorem State.mapClk_ledger (s : State) (f : Clk → Clk) : (s.mapClk f).ledger = s.ledger := rfl
@[simp] theorem State.mapClk_arb (s : State) (f : Clk → Clk) : (s.mapClk f).arb = s.arb := rfl
@[simp] theorem State.mapClk_ports (s : State) (f : Clk → Clk) : (s.mapClk f).ports = s.ports := rfl
@[simp] theorem State.mapClk_stations (s : State) (f : Clk → Clk) : (s.mapClk f).stations = s.stations := rfl
@[simp] theorem State.mapClk_dsc (s : State) (f : Clk → Clk) : (s.mapClk f).dsc = s.dsc := rfl
@[simp] theorem State.mapClk_io (s : State) (f : Clk → Clk) : (s.mapClk f).io = s.io := rfl
@[simp] theorem State.mapClk_acq (s : State) (f : Clk → Clk) : (s.mapClk f).acq = s.acq := rfl
@[simp] theorem State.mapClk_par (s : State) (f : Clk → Clk) : (s.mapClk f).par = s.par := rfl
@[simp] theorem State.mapClk_ptb (s : State) (f : Clk → Clk) : (s.mapClk f).ptb = s.ptb := rfl
@[simp] theorem State.mapClk_bst (s : State) (f : Clk → Clk) : (s.mapClk f).bst = s.bst := rfl
@[simp] theorem State.mapClk_srm (s : State) (f : Clk → Clk) : (s.mapClk f).srm = s.srm := rfl
@[simp] theorem State.mapClk_age (s : State) (f : Clk → Clk) : (s.mapClk f).age = s.age := rfl
@[simp] theorem State.mapClk_pmb (s : State) (f : Clk → Clk) : (s.mapClk f).pmb = s.pmb := rfl
@[simp] theorem State.mapClk_dbk (s : State) (f : Clk → Clk) : (s.mapClk f).dbk = s.dbk := rfl

@[simp] theorem State.mapTim_pending (s : State) (f : Tim → Tim) : (s.mapTim f).pending = s.pending := rfl
@[simp] theorem State.mapTim_readData (s : State) (f : Tim → Tim) : (s.mapTim f).readData = s.readData := rfl
@[simp] theorem State.mapTim_freeCount (s : State) (f : Tim → Tim) : (s.mapTim f).freeCount = s.freeCount := rfl
@[simp] theorem State.mapTim_dramMib (s : State) (f : Tim → Tim) : (s.mapTim f).dramMib = s.dramMib := rfl
@[simp] theorem State.mapTim_dram (s : State) (f : Tim → Tim) : (s.mapTim f).dram = s.dram := rfl
@[simp] theorem State.mapTim_glb (s : State) (f : Tim → Tim) : (s.mapTim f).glb = s.glb := rfl
@[simp] theorem State.mapTim_clk (s : State) (f : Tim → Tim) : (s.mapTim f).clk = s.clk := rfl
@[simp] theorem State.mapTim_tim (s : State) (f : Tim → Tim) : (s.mapTim f).tim = f s.tim := rfl
@[simp] theorem State.mapTim_cht (s : State) (f : Tim → Tim) : (s.mapTim f).cht = s.cht := rfl
@[simp] theorem State.mapTim_cyc (s : State) (f : Tim → Tim) : (s.mapTim f).cyc = s.cyc := rfl
@[simp] theorem State.mapTim_pages (s : State) (f : Tim → Tim) : (s.mapTim f).pages = s.pages := rfl
@[simp] theorem State.mapTim_axes (s : State) (f : Tim → Tim) : (s.mapTim f).axes = s.axes := rfl
@[simp] theorem State.mapTim_code (s : State) (f : Tim → Tim) : (s.mapTim f).code = s.code := rfl
@[simp] theorem State.mapTim_lanes (s : State) (f : Tim → Tim) : (s.mapTim f).lanes = s.lanes := rfl
@[simp] theorem State.mapTim_teller (s : State) (f : Tim → Tim) : (s.mapTim f).teller = s.teller := rfl
@[simp] theorem State.mapTim_ledger (s : State) (f : Tim → Tim) : (s.mapTim f).ledger = s.ledger := rfl
@[simp] theorem State.mapTim_arb (s : State) (f : Tim → Tim) : (s.mapTim f).arb = s.arb := rfl
@[simp] theorem State.mapTim_ports (s : State) (f : Tim → Tim) : (s.mapTim f).ports = s.ports := rfl
@[simp] theorem State.mapTim_stations (s : State) (f : Tim → Tim) : (s.mapTim f).stations = s.stations := rfl
@[simp] theorem State.mapTim_dsc (s : State) (f : Tim → Tim) : (s.mapTim f).dsc = s.dsc := rfl
@[simp] theorem State.mapTim_io (s : State) (f : Tim → Tim) : (s.mapTim f).io = s.io := rfl
@[simp] theorem State.mapTim_acq (s : State) (f : Tim → Tim) : (s.mapTim f).acq = s.acq := rfl
@[simp] theorem State.mapTim_par (s : State) (f : Tim → Tim) : (s.mapTim f).par = s.par := rfl
@[simp] theorem State.mapTim_ptb (s : State) (f : Tim → Tim) : (s.mapTim f).ptb = s.ptb := rfl
@[simp] theorem State.mapTim_bst (s : State) (f : Tim → Tim) : (s.mapTim f).bst = s.bst := rfl
@[simp] theorem State.mapTim_srm (s : State) (f : Tim → Tim) : (s.mapTim f).srm = s.srm := rfl
@[simp] theorem State.mapTim_age (s : State) (f : Tim → Tim) : (s.mapTim f).age = s.age := rfl
@[simp] theorem State.mapTim_pmb (s : State) (f : Tim → Tim) : (s.mapTim f).pmb = s.pmb := rfl
@[simp] theorem State.mapTim_dbk (s : State) (f : Tim → Tim) : (s.mapTim f).dbk = s.dbk := rfl

@[simp] theorem State.mapCht_pending (s : State) (f : Cht → Cht) : (s.mapCht f).pending = s.pending := rfl
@[simp] theorem State.mapCht_readData (s : State) (f : Cht → Cht) : (s.mapCht f).readData = s.readData := rfl
@[simp] theorem State.mapCht_freeCount (s : State) (f : Cht → Cht) : (s.mapCht f).freeCount = s.freeCount := rfl
@[simp] theorem State.mapCht_dramMib (s : State) (f : Cht → Cht) : (s.mapCht f).dramMib = s.dramMib := rfl
@[simp] theorem State.mapCht_dram (s : State) (f : Cht → Cht) : (s.mapCht f).dram = s.dram := rfl
@[simp] theorem State.mapCht_glb (s : State) (f : Cht → Cht) : (s.mapCht f).glb = s.glb := rfl
@[simp] theorem State.mapCht_clk (s : State) (f : Cht → Cht) : (s.mapCht f).clk = s.clk := rfl
@[simp] theorem State.mapCht_tim (s : State) (f : Cht → Cht) : (s.mapCht f).tim = s.tim := rfl
@[simp] theorem State.mapCht_cht (s : State) (f : Cht → Cht) : (s.mapCht f).cht = f s.cht := rfl
@[simp] theorem State.mapCht_cyc (s : State) (f : Cht → Cht) : (s.mapCht f).cyc = s.cyc := rfl
@[simp] theorem State.mapCht_pages (s : State) (f : Cht → Cht) : (s.mapCht f).pages = s.pages := rfl
@[simp] theorem State.mapCht_axes (s : State) (f : Cht → Cht) : (s.mapCht f).axes = s.axes := rfl
@[simp] theorem State.mapCht_code (s : State) (f : Cht → Cht) : (s.mapCht f).code = s.code := rfl
@[simp] theorem State.mapCht_lanes (s : State) (f : Cht → Cht) : (s.mapCht f).lanes = s.lanes := rfl
@[simp] theorem State.mapCht_teller (s : State) (f : Cht → Cht) : (s.mapCht f).teller = s.teller := rfl
@[simp] theorem State.mapCht_ledger (s : State) (f : Cht → Cht) : (s.mapCht f).ledger = s.ledger := rfl
@[simp] theorem State.mapCht_arb (s : State) (f : Cht → Cht) : (s.mapCht f).arb = s.arb := rfl
@[simp] theorem State.mapCht_ports (s : State) (f : Cht → Cht) : (s.mapCht f).ports = s.ports := rfl
@[simp] theorem State.mapCht_stations (s : State) (f : Cht → Cht) : (s.mapCht f).stations = s.stations := rfl
@[simp] theorem State.mapCht_dsc (s : State) (f : Cht → Cht) : (s.mapCht f).dsc = s.dsc := rfl
@[simp] theorem State.mapCht_io (s : State) (f : Cht → Cht) : (s.mapCht f).io = s.io := rfl
@[simp] theorem State.mapCht_acq (s : State) (f : Cht → Cht) : (s.mapCht f).acq = s.acq := rfl
@[simp] theorem State.mapCht_par (s : State) (f : Cht → Cht) : (s.mapCht f).par = s.par := rfl
@[simp] theorem State.mapCht_ptb (s : State) (f : Cht → Cht) : (s.mapCht f).ptb = s.ptb := rfl
@[simp] theorem State.mapCht_bst (s : State) (f : Cht → Cht) : (s.mapCht f).bst = s.bst := rfl
@[simp] theorem State.mapCht_srm (s : State) (f : Cht → Cht) : (s.mapCht f).srm = s.srm := rfl
@[simp] theorem State.mapCht_age (s : State) (f : Cht → Cht) : (s.mapCht f).age = s.age := rfl
@[simp] theorem State.mapCht_pmb (s : State) (f : Cht → Cht) : (s.mapCht f).pmb = s.pmb := rfl
@[simp] theorem State.mapCht_dbk (s : State) (f : Cht → Cht) : (s.mapCht f).dbk = s.dbk := rfl

@[simp] theorem State.mapCyc_pending (s : State) (f : Cyc → Cyc) : (s.mapCyc f).pending = s.pending := rfl
@[simp] theorem State.mapCyc_readData (s : State) (f : Cyc → Cyc) : (s.mapCyc f).readData = s.readData := rfl
@[simp] theorem State.mapCyc_freeCount (s : State) (f : Cyc → Cyc) : (s.mapCyc f).freeCount = s.freeCount := rfl
@[simp] theorem State.mapCyc_dramMib (s : State) (f : Cyc → Cyc) : (s.mapCyc f).dramMib = s.dramMib := rfl
@[simp] theorem State.mapCyc_dram (s : State) (f : Cyc → Cyc) : (s.mapCyc f).dram = s.dram := rfl
@[simp] theorem State.mapCyc_glb (s : State) (f : Cyc → Cyc) : (s.mapCyc f).glb = s.glb := rfl
@[simp] theorem State.mapCyc_clk (s : State) (f : Cyc → Cyc) : (s.mapCyc f).clk = s.clk := rfl
@[simp] theorem State.mapCyc_tim (s : State) (f : Cyc → Cyc) : (s.mapCyc f).tim = s.tim := rfl
@[simp] theorem State.mapCyc_cht (s : State) (f : Cyc → Cyc) : (s.mapCyc f).cht = s.cht := rfl
@[simp] theorem State.mapCyc_cyc (s : State) (f : Cyc → Cyc) : (s.mapCyc f).cyc = f s.cyc := rfl
@[simp] theorem State.mapCyc_pages (s : State) (f : Cyc → Cyc) : (s.mapCyc f).pages = s.pages := rfl
@[simp] theorem State.mapCyc_axes (s : State) (f : Cyc → Cyc) : (s.mapCyc f).axes = s.axes := rfl
@[simp] theorem State.mapCyc_code (s : State) (f : Cyc → Cyc) : (s.mapCyc f).code = s.code := rfl
@[simp] theorem State.mapCyc_lanes (s : State) (f : Cyc → Cyc) : (s.mapCyc f).lanes = s.lanes := rfl
@[simp] theorem State.mapCyc_teller (s : State) (f : Cyc → Cyc) : (s.mapCyc f).teller = s.teller := rfl
@[simp] theorem State.mapCyc_ledger (s : State) (f : Cyc → Cyc) : (s.mapCyc f).ledger = s.ledger := rfl
@[simp] theorem State.mapCyc_arb (s : State) (f : Cyc → Cyc) : (s.mapCyc f).arb = s.arb := rfl
@[simp] theorem State.mapCyc_ports (s : State) (f : Cyc → Cyc) : (s.mapCyc f).ports = s.ports := rfl
@[simp] theorem State.mapCyc_stations (s : State) (f : Cyc → Cyc) : (s.mapCyc f).stations = s.stations := rfl
@[simp] theorem State.mapCyc_dsc (s : State) (f : Cyc → Cyc) : (s.mapCyc f).dsc = s.dsc := rfl
@[simp] theorem State.mapCyc_io (s : State) (f : Cyc → Cyc) : (s.mapCyc f).io = s.io := rfl
@[simp] theorem State.mapCyc_acq (s : State) (f : Cyc → Cyc) : (s.mapCyc f).acq = s.acq := rfl
@[simp] theorem State.mapCyc_par (s : State) (f : Cyc → Cyc) : (s.mapCyc f).par = s.par := rfl
@[simp] theorem State.mapCyc_ptb (s : State) (f : Cyc → Cyc) : (s.mapCyc f).ptb = s.ptb := rfl
@[simp] theorem State.mapCyc_bst (s : State) (f : Cyc → Cyc) : (s.mapCyc f).bst = s.bst := rfl
@[simp] theorem State.mapCyc_srm (s : State) (f : Cyc → Cyc) : (s.mapCyc f).srm = s.srm := rfl
@[simp] theorem State.mapCyc_age (s : State) (f : Cyc → Cyc) : (s.mapCyc f).age = s.age := rfl
@[simp] theorem State.mapCyc_pmb (s : State) (f : Cyc → Cyc) : (s.mapCyc f).pmb = s.pmb := rfl
@[simp] theorem State.mapCyc_dbk (s : State) (f : Cyc → Cyc) : (s.mapCyc f).dbk = s.dbk := rfl

@[simp] theorem State.mapTeller_pending (s : State) (f : Teller → Teller) : (s.mapTeller f).pending = s.pending := rfl
@[simp] theorem State.mapTeller_readData (s : State) (f : Teller → Teller) : (s.mapTeller f).readData = s.readData := rfl
@[simp] theorem State.mapTeller_freeCount (s : State) (f : Teller → Teller) : (s.mapTeller f).freeCount = s.freeCount := rfl
@[simp] theorem State.mapTeller_dramMib (s : State) (f : Teller → Teller) : (s.mapTeller f).dramMib = s.dramMib := rfl
@[simp] theorem State.mapTeller_dram (s : State) (f : Teller → Teller) : (s.mapTeller f).dram = s.dram := rfl
@[simp] theorem State.mapTeller_glb (s : State) (f : Teller → Teller) : (s.mapTeller f).glb = s.glb := rfl
@[simp] theorem State.mapTeller_clk (s : State) (f : Teller → Teller) : (s.mapTeller f).clk = s.clk := rfl
@[simp] theorem State.mapTeller_tim (s : State) (f : Teller → Teller) : (s.mapTeller f).tim = s.tim := rfl
@[simp] theorem State.mapTeller_cht (s : State) (f : Teller → Teller) : (s.mapTeller f).cht = s.cht := rfl
@[simp] theorem State.mapTeller_cyc (s : State) (f : Teller → Teller) : (s.mapTeller f).cyc = s.cyc := rfl
@[simp] theorem State.mapTeller_pages (s : State) (f : Teller → Teller) : (s.mapTeller f).pages = s.pages := rfl
@[simp] theorem State.mapTeller_axes (s : State) (f : Teller → Teller) : (s.mapTeller f).axes = s.axes := rfl
@[simp] theorem State.mapTeller_code (s : State) (f : Teller → Teller) : (s.mapTeller f).code = s.code := rfl
@[simp] theorem State.mapTeller_lanes (s : State) (f : Teller → Teller) : (s.mapTeller f).lanes = s.lanes := rfl
@[simp] theorem State.mapTeller_teller (s : State) (f : Teller → Teller) : (s.mapTeller f).teller = f s.teller := rfl
@[simp] theorem State.mapTeller_ledger (s : State) (f : Teller → Teller) : (s.mapTeller f).ledger = s.ledger := rfl
@[simp] theorem State.mapTeller_arb (s : State) (f : Teller → Teller) : (s.mapTeller f).arb = s.arb := rfl
@[simp] theorem State.mapTeller_ports (s : State) (f : Teller → Teller) : (s.mapTeller f).ports = s.ports := rfl
@[simp] theorem State.mapTeller_stations (s : State) (f : Teller → Teller) : (s.mapTeller f).stations = s.stations := rfl
@[simp] theorem State.mapTeller_dsc (s : State) (f : Teller → Teller) : (s.mapTeller f).dsc = s.dsc := rfl
@[simp] theorem State.mapTeller_io (s : State) (f : Teller → Teller) : (s.mapTeller f).io = s.io := rfl
@[simp] theorem State.mapTeller_acq (s : State) (f : Teller → Teller) : (s.mapTeller f).acq = s.acq := rfl
@[simp] theorem State.mapTeller_par (s : State) (f : Teller → Teller) : (s.mapTeller f).par = s.par := rfl
@[simp] theorem State.mapTeller_ptb (s : State) (f : Teller → Teller) : (s.mapTeller f).ptb = s.ptb := rfl
@[simp] theorem State.mapTeller_bst (s : State) (f : Teller → Teller) : (s.mapTeller f).bst = s.bst := rfl
@[simp] theorem State.mapTeller_srm (s : State) (f : Teller → Teller) : (s.mapTeller f).srm = s.srm := rfl
@[simp] theorem State.mapTeller_age (s : State) (f : Teller → Teller) : (s.mapTeller f).age = s.age := rfl
@[simp] theorem State.mapTeller_pmb (s : State) (f : Teller → Teller) : (s.mapTeller f).pmb = s.pmb := rfl
@[simp] theorem State.mapTeller_dbk (s : State) (f : Teller → Teller) : (s.mapTeller f).dbk = s.dbk := rfl

@[simp] theorem State.mapLedger_pending (s : State) (f : Ledger → Ledger) : (s.mapLedger f).pending = s.pending := rfl
@[simp] theorem State.mapLedger_readData (s : State) (f : Ledger → Ledger) : (s.mapLedger f).readData = s.readData := rfl
@[simp] theorem State.mapLedger_freeCount (s : State) (f : Ledger → Ledger) : (s.mapLedger f).freeCount = s.freeCount := rfl
@[simp] theorem State.mapLedger_dramMib (s : State) (f : Ledger → Ledger) : (s.mapLedger f).dramMib = s.dramMib := rfl
@[simp] theorem State.mapLedger_dram (s : State) (f : Ledger → Ledger) : (s.mapLedger f).dram = s.dram := rfl
@[simp] theorem State.mapLedger_glb (s : State) (f : Ledger → Ledger) : (s.mapLedger f).glb = s.glb := rfl
@[simp] theorem State.mapLedger_clk (s : State) (f : Ledger → Ledger) : (s.mapLedger f).clk = s.clk := rfl
@[simp] theorem State.mapLedger_tim (s : State) (f : Ledger → Ledger) : (s.mapLedger f).tim = s.tim := rfl
@[simp] theorem State.mapLedger_cht (s : State) (f : Ledger → Ledger) : (s.mapLedger f).cht = s.cht := rfl
@[simp] theorem State.mapLedger_cyc (s : State) (f : Ledger → Ledger) : (s.mapLedger f).cyc = s.cyc := rfl
@[simp] theorem State.mapLedger_pages (s : State) (f : Ledger → Ledger) : (s.mapLedger f).pages = s.pages := rfl
@[simp] theorem State.mapLedger_axes (s : State) (f : Ledger → Ledger) : (s.mapLedger f).axes = s.axes := rfl
@[simp] theorem State.mapLedger_code (s : State) (f : Ledger → Ledger) : (s.mapLedger f).code = s.code := rfl
@[simp] theorem State.mapLedger_lanes (s : State) (f : Ledger → Ledger) : (s.mapLedger f).lanes = s.lanes := rfl
@[simp] theorem State.mapLedger_teller (s : State) (f : Ledger → Ledger) : (s.mapLedger f).teller = s.teller := rfl
@[simp] theorem State.mapLedger_ledger (s : State) (f : Ledger → Ledger) : (s.mapLedger f).ledger = f s.ledger := rfl
@[simp] theorem State.mapLedger_arb (s : State) (f : Ledger → Ledger) : (s.mapLedger f).arb = s.arb := rfl
@[simp] theorem State.mapLedger_ports (s : State) (f : Ledger → Ledger) : (s.mapLedger f).ports = s.ports := rfl
@[simp] theorem State.mapLedger_stations (s : State) (f : Ledger → Ledger) : (s.mapLedger f).stations = s.stations := rfl
@[simp] theorem State.mapLedger_dsc (s : State) (f : Ledger → Ledger) : (s.mapLedger f).dsc = s.dsc := rfl
@[simp] theorem State.mapLedger_io (s : State) (f : Ledger → Ledger) : (s.mapLedger f).io = s.io := rfl
@[simp] theorem State.mapLedger_acq (s : State) (f : Ledger → Ledger) : (s.mapLedger f).acq = s.acq := rfl
@[simp] theorem State.mapLedger_par (s : State) (f : Ledger → Ledger) : (s.mapLedger f).par = s.par := rfl
@[simp] theorem State.mapLedger_ptb (s : State) (f : Ledger → Ledger) : (s.mapLedger f).ptb = s.ptb := rfl
@[simp] theorem State.mapLedger_bst (s : State) (f : Ledger → Ledger) : (s.mapLedger f).bst = s.bst := rfl
@[simp] theorem State.mapLedger_srm (s : State) (f : Ledger → Ledger) : (s.mapLedger f).srm = s.srm := rfl
@[simp] theorem State.mapLedger_age (s : State) (f : Ledger → Ledger) : (s.mapLedger f).age = s.age := rfl
@[simp] theorem State.mapLedger_pmb (s : State) (f : Ledger → Ledger) : (s.mapLedger f).pmb = s.pmb := rfl
@[simp] theorem State.mapLedger_dbk (s : State) (f : Ledger → Ledger) : (s.mapLedger f).dbk = s.dbk := rfl

@[simp] theorem State.mapArb_pending (s : State) (f : Arb → Arb) : (s.mapArb f).pending = s.pending := rfl
@[simp] theorem State.mapArb_readData (s : State) (f : Arb → Arb) : (s.mapArb f).readData = s.readData := rfl
@[simp] theorem State.mapArb_freeCount (s : State) (f : Arb → Arb) : (s.mapArb f).freeCount = s.freeCount := rfl
@[simp] theorem State.mapArb_dramMib (s : State) (f : Arb → Arb) : (s.mapArb f).dramMib = s.dramMib := rfl
@[simp] theorem State.mapArb_dram (s : State) (f : Arb → Arb) : (s.mapArb f).dram = s.dram := rfl
@[simp] theorem State.mapArb_glb (s : State) (f : Arb → Arb) : (s.mapArb f).glb = s.glb := rfl
@[simp] theorem State.mapArb_clk (s : State) (f : Arb → Arb) : (s.mapArb f).clk = s.clk := rfl
@[simp] theorem State.mapArb_tim (s : State) (f : Arb → Arb) : (s.mapArb f).tim = s.tim := rfl
@[simp] theorem State.mapArb_cht (s : State) (f : Arb → Arb) : (s.mapArb f).cht = s.cht := rfl
@[simp] theorem State.mapArb_cyc (s : State) (f : Arb → Arb) : (s.mapArb f).cyc = s.cyc := rfl
@[simp] theorem State.mapArb_pages (s : State) (f : Arb → Arb) : (s.mapArb f).pages = s.pages := rfl
@[simp] theorem State.mapArb_axes (s : State) (f : Arb → Arb) : (s.mapArb f).axes = s.axes := rfl
@[simp] theorem State.mapArb_code (s : State) (f : Arb → Arb) : (s.mapArb f).code = s.code := rfl
@[simp] theorem State.mapArb_lanes (s : State) (f : Arb → Arb) : (s.mapArb f).lanes = s.lanes := rfl
@[simp] theorem State.mapArb_teller (s : State) (f : Arb → Arb) : (s.mapArb f).teller = s.teller := rfl
@[simp] theorem State.mapArb_ledger (s : State) (f : Arb → Arb) : (s.mapArb f).ledger = s.ledger := rfl
@[simp] theorem State.mapArb_arb (s : State) (f : Arb → Arb) : (s.mapArb f).arb = f s.arb := rfl
@[simp] theorem State.mapArb_ports (s : State) (f : Arb → Arb) : (s.mapArb f).ports = s.ports := rfl
@[simp] theorem State.mapArb_stations (s : State) (f : Arb → Arb) : (s.mapArb f).stations = s.stations := rfl
@[simp] theorem State.mapArb_dsc (s : State) (f : Arb → Arb) : (s.mapArb f).dsc = s.dsc := rfl
@[simp] theorem State.mapArb_io (s : State) (f : Arb → Arb) : (s.mapArb f).io = s.io := rfl
@[simp] theorem State.mapArb_acq (s : State) (f : Arb → Arb) : (s.mapArb f).acq = s.acq := rfl
@[simp] theorem State.mapArb_par (s : State) (f : Arb → Arb) : (s.mapArb f).par = s.par := rfl
@[simp] theorem State.mapArb_ptb (s : State) (f : Arb → Arb) : (s.mapArb f).ptb = s.ptb := rfl
@[simp] theorem State.mapArb_bst (s : State) (f : Arb → Arb) : (s.mapArb f).bst = s.bst := rfl
@[simp] theorem State.mapArb_srm (s : State) (f : Arb → Arb) : (s.mapArb f).srm = s.srm := rfl
@[simp] theorem State.mapArb_age (s : State) (f : Arb → Arb) : (s.mapArb f).age = s.age := rfl
@[simp] theorem State.mapArb_pmb (s : State) (f : Arb → Arb) : (s.mapArb f).pmb = s.pmb := rfl
@[simp] theorem State.mapArb_dbk (s : State) (f : Arb → Arb) : (s.mapArb f).dbk = s.dbk := rfl

@[simp] theorem State.mapDsc_pending (s : State) (f : Dsc → Dsc) : (s.mapDsc f).pending = s.pending := rfl
@[simp] theorem State.mapDsc_readData (s : State) (f : Dsc → Dsc) : (s.mapDsc f).readData = s.readData := rfl
@[simp] theorem State.mapDsc_freeCount (s : State) (f : Dsc → Dsc) : (s.mapDsc f).freeCount = s.freeCount := rfl
@[simp] theorem State.mapDsc_dramMib (s : State) (f : Dsc → Dsc) : (s.mapDsc f).dramMib = s.dramMib := rfl
@[simp] theorem State.mapDsc_dram (s : State) (f : Dsc → Dsc) : (s.mapDsc f).dram = s.dram := rfl
@[simp] theorem State.mapDsc_glb (s : State) (f : Dsc → Dsc) : (s.mapDsc f).glb = s.glb := rfl
@[simp] theorem State.mapDsc_clk (s : State) (f : Dsc → Dsc) : (s.mapDsc f).clk = s.clk := rfl
@[simp] theorem State.mapDsc_tim (s : State) (f : Dsc → Dsc) : (s.mapDsc f).tim = s.tim := rfl
@[simp] theorem State.mapDsc_cht (s : State) (f : Dsc → Dsc) : (s.mapDsc f).cht = s.cht := rfl
@[simp] theorem State.mapDsc_cyc (s : State) (f : Dsc → Dsc) : (s.mapDsc f).cyc = s.cyc := rfl
@[simp] theorem State.mapDsc_pages (s : State) (f : Dsc → Dsc) : (s.mapDsc f).pages = s.pages := rfl
@[simp] theorem State.mapDsc_axes (s : State) (f : Dsc → Dsc) : (s.mapDsc f).axes = s.axes := rfl
@[simp] theorem State.mapDsc_code (s : State) (f : Dsc → Dsc) : (s.mapDsc f).code = s.code := rfl
@[simp] theorem State.mapDsc_lanes (s : State) (f : Dsc → Dsc) : (s.mapDsc f).lanes = s.lanes := rfl
@[simp] theorem State.mapDsc_teller (s : State) (f : Dsc → Dsc) : (s.mapDsc f).teller = s.teller := rfl
@[simp] theorem State.mapDsc_ledger (s : State) (f : Dsc → Dsc) : (s.mapDsc f).ledger = s.ledger := rfl
@[simp] theorem State.mapDsc_arb (s : State) (f : Dsc → Dsc) : (s.mapDsc f).arb = s.arb := rfl
@[simp] theorem State.mapDsc_ports (s : State) (f : Dsc → Dsc) : (s.mapDsc f).ports = s.ports := rfl
@[simp] theorem State.mapDsc_stations (s : State) (f : Dsc → Dsc) : (s.mapDsc f).stations = s.stations := rfl
@[simp] theorem State.mapDsc_dsc (s : State) (f : Dsc → Dsc) : (s.mapDsc f).dsc = f s.dsc := rfl
@[simp] theorem State.mapDsc_io (s : State) (f : Dsc → Dsc) : (s.mapDsc f).io = s.io := rfl
@[simp] theorem State.mapDsc_acq (s : State) (f : Dsc → Dsc) : (s.mapDsc f).acq = s.acq := rfl
@[simp] theorem State.mapDsc_par (s : State) (f : Dsc → Dsc) : (s.mapDsc f).par = s.par := rfl
@[simp] theorem State.mapDsc_ptb (s : State) (f : Dsc → Dsc) : (s.mapDsc f).ptb = s.ptb := rfl
@[simp] theorem State.mapDsc_bst (s : State) (f : Dsc → Dsc) : (s.mapDsc f).bst = s.bst := rfl
@[simp] theorem State.mapDsc_srm (s : State) (f : Dsc → Dsc) : (s.mapDsc f).srm = s.srm := rfl
@[simp] theorem State.mapDsc_age (s : State) (f : Dsc → Dsc) : (s.mapDsc f).age = s.age := rfl
@[simp] theorem State.mapDsc_pmb (s : State) (f : Dsc → Dsc) : (s.mapDsc f).pmb = s.pmb := rfl
@[simp] theorem State.mapDsc_dbk (s : State) (f : Dsc → Dsc) : (s.mapDsc f).dbk = s.dbk := rfl

@[simp] theorem State.mapIo_pending (s : State) (f : Local → Local) : (s.mapIo f).pending = s.pending := rfl
@[simp] theorem State.mapIo_readData (s : State) (f : Local → Local) : (s.mapIo f).readData = s.readData := rfl
@[simp] theorem State.mapIo_freeCount (s : State) (f : Local → Local) : (s.mapIo f).freeCount = s.freeCount := rfl
@[simp] theorem State.mapIo_dramMib (s : State) (f : Local → Local) : (s.mapIo f).dramMib = s.dramMib := rfl
@[simp] theorem State.mapIo_dram (s : State) (f : Local → Local) : (s.mapIo f).dram = s.dram := rfl
@[simp] theorem State.mapIo_glb (s : State) (f : Local → Local) : (s.mapIo f).glb = s.glb := rfl
@[simp] theorem State.mapIo_clk (s : State) (f : Local → Local) : (s.mapIo f).clk = s.clk := rfl
@[simp] theorem State.mapIo_tim (s : State) (f : Local → Local) : (s.mapIo f).tim = s.tim := rfl
@[simp] theorem State.mapIo_cht (s : State) (f : Local → Local) : (s.mapIo f).cht = s.cht := rfl
@[simp] theorem State.mapIo_cyc (s : State) (f : Local → Local) : (s.mapIo f).cyc = s.cyc := rfl
@[simp] theorem State.mapIo_pages (s : State) (f : Local → Local) : (s.mapIo f).pages = s.pages := rfl
@[simp] theorem State.mapIo_axes (s : State) (f : Local → Local) : (s.mapIo f).axes = s.axes := rfl
@[simp] theorem State.mapIo_code (s : State) (f : Local → Local) : (s.mapIo f).code = s.code := rfl
@[simp] theorem State.mapIo_lanes (s : State) (f : Local → Local) : (s.mapIo f).lanes = s.lanes := rfl
@[simp] theorem State.mapIo_teller (s : State) (f : Local → Local) : (s.mapIo f).teller = s.teller := rfl
@[simp] theorem State.mapIo_ledger (s : State) (f : Local → Local) : (s.mapIo f).ledger = s.ledger := rfl
@[simp] theorem State.mapIo_arb (s : State) (f : Local → Local) : (s.mapIo f).arb = s.arb := rfl
@[simp] theorem State.mapIo_ports (s : State) (f : Local → Local) : (s.mapIo f).ports = s.ports := rfl
@[simp] theorem State.mapIo_stations (s : State) (f : Local → Local) : (s.mapIo f).stations = s.stations := rfl
@[simp] theorem State.mapIo_dsc (s : State) (f : Local → Local) : (s.mapIo f).dsc = s.dsc := rfl
@[simp] theorem State.mapIo_io (s : State) (f : Local → Local) : (s.mapIo f).io = f s.io := rfl
@[simp] theorem State.mapIo_acq (s : State) (f : Local → Local) : (s.mapIo f).acq = s.acq := rfl
@[simp] theorem State.mapIo_par (s : State) (f : Local → Local) : (s.mapIo f).par = s.par := rfl
@[simp] theorem State.mapIo_ptb (s : State) (f : Local → Local) : (s.mapIo f).ptb = s.ptb := rfl
@[simp] theorem State.mapIo_bst (s : State) (f : Local → Local) : (s.mapIo f).bst = s.bst := rfl
@[simp] theorem State.mapIo_srm (s : State) (f : Local → Local) : (s.mapIo f).srm = s.srm := rfl
@[simp] theorem State.mapIo_age (s : State) (f : Local → Local) : (s.mapIo f).age = s.age := rfl
@[simp] theorem State.mapIo_pmb (s : State) (f : Local → Local) : (s.mapIo f).pmb = s.pmb := rfl
@[simp] theorem State.mapIo_dbk (s : State) (f : Local → Local) : (s.mapIo f).dbk = s.dbk := rfl

@[simp] theorem State.mapAcq_pending (s : State) (f : Acq → Acq) : (s.mapAcq f).pending = s.pending := rfl
@[simp] theorem State.mapAcq_readData (s : State) (f : Acq → Acq) : (s.mapAcq f).readData = s.readData := rfl
@[simp] theorem State.mapAcq_freeCount (s : State) (f : Acq → Acq) : (s.mapAcq f).freeCount = s.freeCount := rfl
@[simp] theorem State.mapAcq_dramMib (s : State) (f : Acq → Acq) : (s.mapAcq f).dramMib = s.dramMib := rfl
@[simp] theorem State.mapAcq_dram (s : State) (f : Acq → Acq) : (s.mapAcq f).dram = s.dram := rfl
@[simp] theorem State.mapAcq_glb (s : State) (f : Acq → Acq) : (s.mapAcq f).glb = s.glb := rfl
@[simp] theorem State.mapAcq_clk (s : State) (f : Acq → Acq) : (s.mapAcq f).clk = s.clk := rfl
@[simp] theorem State.mapAcq_tim (s : State) (f : Acq → Acq) : (s.mapAcq f).tim = s.tim := rfl
@[simp] theorem State.mapAcq_cht (s : State) (f : Acq → Acq) : (s.mapAcq f).cht = s.cht := rfl
@[simp] theorem State.mapAcq_cyc (s : State) (f : Acq → Acq) : (s.mapAcq f).cyc = s.cyc := rfl
@[simp] theorem State.mapAcq_pages (s : State) (f : Acq → Acq) : (s.mapAcq f).pages = s.pages := rfl
@[simp] theorem State.mapAcq_axes (s : State) (f : Acq → Acq) : (s.mapAcq f).axes = s.axes := rfl
@[simp] theorem State.mapAcq_code (s : State) (f : Acq → Acq) : (s.mapAcq f).code = s.code := rfl
@[simp] theorem State.mapAcq_lanes (s : State) (f : Acq → Acq) : (s.mapAcq f).lanes = s.lanes := rfl
@[simp] theorem State.mapAcq_teller (s : State) (f : Acq → Acq) : (s.mapAcq f).teller = s.teller := rfl
@[simp] theorem State.mapAcq_ledger (s : State) (f : Acq → Acq) : (s.mapAcq f).ledger = s.ledger := rfl
@[simp] theorem State.mapAcq_arb (s : State) (f : Acq → Acq) : (s.mapAcq f).arb = s.arb := rfl
@[simp] theorem State.mapAcq_ports (s : State) (f : Acq → Acq) : (s.mapAcq f).ports = s.ports := rfl
@[simp] theorem State.mapAcq_stations (s : State) (f : Acq → Acq) : (s.mapAcq f).stations = s.stations := rfl
@[simp] theorem State.mapAcq_dsc (s : State) (f : Acq → Acq) : (s.mapAcq f).dsc = s.dsc := rfl
@[simp] theorem State.mapAcq_io (s : State) (f : Acq → Acq) : (s.mapAcq f).io = s.io := rfl
@[simp] theorem State.mapAcq_acq (s : State) (f : Acq → Acq) : (s.mapAcq f).acq = f s.acq := rfl
@[simp] theorem State.mapAcq_par (s : State) (f : Acq → Acq) : (s.mapAcq f).par = s.par := rfl
@[simp] theorem State.mapAcq_ptb (s : State) (f : Acq → Acq) : (s.mapAcq f).ptb = s.ptb := rfl
@[simp] theorem State.mapAcq_bst (s : State) (f : Acq → Acq) : (s.mapAcq f).bst = s.bst := rfl
@[simp] theorem State.mapAcq_srm (s : State) (f : Acq → Acq) : (s.mapAcq f).srm = s.srm := rfl
@[simp] theorem State.mapAcq_age (s : State) (f : Acq → Acq) : (s.mapAcq f).age = s.age := rfl
@[simp] theorem State.mapAcq_pmb (s : State) (f : Acq → Acq) : (s.mapAcq f).pmb = s.pmb := rfl
@[simp] theorem State.mapAcq_dbk (s : State) (f : Acq → Acq) : (s.mapAcq f).dbk = s.dbk := rfl

@[simp] theorem State.mapPar_pending (s : State) (f : Par → Par) : (s.mapPar f).pending = s.pending := rfl
@[simp] theorem State.mapPar_readData (s : State) (f : Par → Par) : (s.mapPar f).readData = s.readData := rfl
@[simp] theorem State.mapPar_freeCount (s : State) (f : Par → Par) : (s.mapPar f).freeCount = s.freeCount := rfl
@[simp] theorem State.mapPar_dramMib (s : State) (f : Par → Par) : (s.mapPar f).dramMib = s.dramMib := rfl
@[simp] theorem State.mapPar_dram (s : State) (f : Par → Par) : (s.mapPar f).dram = s.dram := rfl
@[simp] theorem State.mapPar_glb (s : State) (f : Par → Par) : (s.mapPar f).glb = s.glb := rfl
@[simp] theorem State.mapPar_clk (s : State) (f : Par → Par) : (s.mapPar f).clk = s.clk := rfl
@[simp] theorem State.mapPar_tim (s : State) (f : Par → Par) : (s.mapPar f).tim = s.tim := rfl
@[simp] theorem State.mapPar_cht (s : State) (f : Par → Par) : (s.mapPar f).cht = s.cht := rfl
@[simp] theorem State.mapPar_cyc (s : State) (f : Par → Par) : (s.mapPar f).cyc = s.cyc := rfl
@[simp] theorem State.mapPar_pages (s : State) (f : Par → Par) : (s.mapPar f).pages = s.pages := rfl
@[simp] theorem State.mapPar_axes (s : State) (f : Par → Par) : (s.mapPar f).axes = s.axes := rfl
@[simp] theorem State.mapPar_code (s : State) (f : Par → Par) : (s.mapPar f).code = s.code := rfl
@[simp] theorem State.mapPar_lanes (s : State) (f : Par → Par) : (s.mapPar f).lanes = s.lanes := rfl
@[simp] theorem State.mapPar_teller (s : State) (f : Par → Par) : (s.mapPar f).teller = s.teller := rfl
@[simp] theorem State.mapPar_ledger (s : State) (f : Par → Par) : (s.mapPar f).ledger = s.ledger := rfl
@[simp] theorem State.mapPar_arb (s : State) (f : Par → Par) : (s.mapPar f).arb = s.arb := rfl
@[simp] theorem State.mapPar_ports (s : State) (f : Par → Par) : (s.mapPar f).ports = s.ports := rfl
@[simp] theorem State.mapPar_stations (s : State) (f : Par → Par) : (s.mapPar f).stations = s.stations := rfl
@[simp] theorem State.mapPar_dsc (s : State) (f : Par → Par) : (s.mapPar f).dsc = s.dsc := rfl
@[simp] theorem State.mapPar_io (s : State) (f : Par → Par) : (s.mapPar f).io = s.io := rfl
@[simp] theorem State.mapPar_acq (s : State) (f : Par → Par) : (s.mapPar f).acq = s.acq := rfl
@[simp] theorem State.mapPar_par (s : State) (f : Par → Par) : (s.mapPar f).par = f s.par := rfl
@[simp] theorem State.mapPar_ptb (s : State) (f : Par → Par) : (s.mapPar f).ptb = s.ptb := rfl
@[simp] theorem State.mapPar_bst (s : State) (f : Par → Par) : (s.mapPar f).bst = s.bst := rfl
@[simp] theorem State.mapPar_srm (s : State) (f : Par → Par) : (s.mapPar f).srm = s.srm := rfl
@[simp] theorem State.mapPar_age (s : State) (f : Par → Par) : (s.mapPar f).age = s.age := rfl
@[simp] theorem State.mapPar_pmb (s : State) (f : Par → Par) : (s.mapPar f).pmb = s.pmb := rfl
@[simp] theorem State.mapPar_dbk (s : State) (f : Par → Par) : (s.mapPar f).dbk = s.dbk := rfl

@[simp] theorem State.mapPtb_pending (s : State) (f : Ptb → Ptb) : (s.mapPtb f).pending = s.pending := rfl
@[simp] theorem State.mapPtb_readData (s : State) (f : Ptb → Ptb) : (s.mapPtb f).readData = s.readData := rfl
@[simp] theorem State.mapPtb_freeCount (s : State) (f : Ptb → Ptb) : (s.mapPtb f).freeCount = s.freeCount := rfl
@[simp] theorem State.mapPtb_dramMib (s : State) (f : Ptb → Ptb) : (s.mapPtb f).dramMib = s.dramMib := rfl
@[simp] theorem State.mapPtb_dram (s : State) (f : Ptb → Ptb) : (s.mapPtb f).dram = s.dram := rfl
@[simp] theorem State.mapPtb_glb (s : State) (f : Ptb → Ptb) : (s.mapPtb f).glb = s.glb := rfl
@[simp] theorem State.mapPtb_clk (s : State) (f : Ptb → Ptb) : (s.mapPtb f).clk = s.clk := rfl
@[simp] theorem State.mapPtb_tim (s : State) (f : Ptb → Ptb) : (s.mapPtb f).tim = s.tim := rfl
@[simp] theorem State.mapPtb_cht (s : State) (f : Ptb → Ptb) : (s.mapPtb f).cht = s.cht := rfl
@[simp] theorem State.mapPtb_cyc (s : State) (f : Ptb → Ptb) : (s.mapPtb f).cyc = s.cyc := rfl
@[simp] theorem State.mapPtb_pages (s : State) (f : Ptb → Ptb) : (s.mapPtb f).pages = s.pages := rfl
@[simp] theorem State.mapPtb_axes (s : State) (f : Ptb → Ptb) : (s.mapPtb f).axes = s.axes := rfl
@[simp] theorem State.mapPtb_code (s : State) (f : Ptb → Ptb) : (s.mapPtb f).code = s.code := rfl
@[simp] theorem State.mapPtb_lanes (s : State) (f : Ptb → Ptb) : (s.mapPtb f).lanes = s.lanes := rfl
@[simp] theorem State.mapPtb_teller (s : State) (f : Ptb → Ptb) : (s.mapPtb f).teller = s.teller := rfl
@[simp] theorem State.mapPtb_ledger (s : State) (f : Ptb → Ptb) : (s.mapPtb f).ledger = s.ledger := rfl
@[simp] theorem State.mapPtb_arb (s : State) (f : Ptb → Ptb) : (s.mapPtb f).arb = s.arb := rfl
@[simp] theorem State.mapPtb_ports (s : State) (f : Ptb → Ptb) : (s.mapPtb f).ports = s.ports := rfl
@[simp] theorem State.mapPtb_stations (s : State) (f : Ptb → Ptb) : (s.mapPtb f).stations = s.stations := rfl
@[simp] theorem State.mapPtb_dsc (s : State) (f : Ptb → Ptb) : (s.mapPtb f).dsc = s.dsc := rfl
@[simp] theorem State.mapPtb_io (s : State) (f : Ptb → Ptb) : (s.mapPtb f).io = s.io := rfl
@[simp] theorem State.mapPtb_acq (s : State) (f : Ptb → Ptb) : (s.mapPtb f).acq = s.acq := rfl
@[simp] theorem State.mapPtb_par (s : State) (f : Ptb → Ptb) : (s.mapPtb f).par = s.par := rfl
@[simp] theorem State.mapPtb_ptb (s : State) (f : Ptb → Ptb) : (s.mapPtb f).ptb = f s.ptb := rfl
@[simp] theorem State.mapPtb_bst (s : State) (f : Ptb → Ptb) : (s.mapPtb f).bst = s.bst := rfl
@[simp] theorem State.mapPtb_srm (s : State) (f : Ptb → Ptb) : (s.mapPtb f).srm = s.srm := rfl
@[simp] theorem State.mapPtb_age (s : State) (f : Ptb → Ptb) : (s.mapPtb f).age = s.age := rfl
@[simp] theorem State.mapPtb_pmb (s : State) (f : Ptb → Ptb) : (s.mapPtb f).pmb = s.pmb := rfl
@[simp] theorem State.mapPtb_dbk (s : State) (f : Ptb → Ptb) : (s.mapPtb f).dbk = s.dbk := rfl

@[simp] theorem State.mapBst_pending (s : State) (f : Bst → Bst) : (s.mapBst f).pending = s.pending := rfl
@[simp] theorem State.mapBst_readData (s : State) (f : Bst → Bst) : (s.mapBst f).readData = s.readData := rfl
@[simp] theorem State.mapBst_freeCount (s : State) (f : Bst → Bst) : (s.mapBst f).freeCount = s.freeCount := rfl
@[simp] theorem State.mapBst_dramMib (s : State) (f : Bst → Bst) : (s.mapBst f).dramMib = s.dramMib := rfl
@[simp] theorem State.mapBst_dram (s : State) (f : Bst → Bst) : (s.mapBst f).dram = s.dram := rfl
@[simp] theorem State.mapBst_glb (s : State) (f : Bst → Bst) : (s.mapBst f).glb = s.glb := rfl
@[simp] theorem State.mapBst_clk (s : State) (f : Bst → Bst) : (s.mapBst f).clk = s.clk := rfl
@[simp] theorem State.mapBst_tim (s : State) (f : Bst → Bst) : (s.mapBst f).tim = s.tim := rfl
@[simp] theorem State.mapBst_cht (s : State) (f : Bst → Bst) : (s.mapBst f).cht = s.cht := rfl
@[simp] theorem State.mapBst_cyc (s : State) (f : Bst → Bst) : (s.mapBst f).cyc = s.cyc := rfl
@[simp] theorem State.mapBst_pages (s : State) (f : Bst → Bst) : (s.mapBst f).pages = s.pages := rfl
@[simp] theorem State.mapBst_axes (s : State) (f : Bst → Bst) : (s.mapBst f).axes = s.axes := rfl
@[simp] theorem State.mapBst_code (s : State) (f : Bst → Bst) : (s.mapBst f).code = s.code := rfl
@[simp] theorem State.mapBst_lanes (s : State) (f : Bst → Bst) : (s.mapBst f).lanes = s.lanes := rfl
@[simp] theorem State.mapBst_teller (s : State) (f : Bst → Bst) : (s.mapBst f).teller = s.teller := rfl
@[simp] theorem State.mapBst_ledger (s : State) (f : Bst → Bst) : (s.mapBst f).ledger = s.ledger := rfl
@[simp] theorem State.mapBst_arb (s : State) (f : Bst → Bst) : (s.mapBst f).arb = s.arb := rfl
@[simp] theorem State.mapBst_ports (s : State) (f : Bst → Bst) : (s.mapBst f).ports = s.ports := rfl
@[simp] theorem State.mapBst_stations (s : State) (f : Bst → Bst) : (s.mapBst f).stations = s.stations := rfl
@[simp] theorem State.mapBst_dsc (s : State) (f : Bst → Bst) : (s.mapBst f).dsc = s.dsc := rfl
@[simp] theorem State.mapBst_io (s : State) (f : Bst → Bst) : (s.mapBst f).io = s.io := rfl
@[simp] theorem State.mapBst_acq (s : State) (f : Bst → Bst) : (s.mapBst f).acq = s.acq := rfl
@[simp] theorem State.mapBst_par (s : State) (f : Bst → Bst) : (s.mapBst f).par = s.par := rfl
@[simp] theorem State.mapBst_ptb (s : State) (f : Bst → Bst) : (s.mapBst f).ptb = s.ptb := rfl
@[simp] theorem State.mapBst_bst (s : State) (f : Bst → Bst) : (s.mapBst f).bst = f s.bst := rfl
@[simp] theorem State.mapBst_srm (s : State) (f : Bst → Bst) : (s.mapBst f).srm = s.srm := rfl
@[simp] theorem State.mapBst_age (s : State) (f : Bst → Bst) : (s.mapBst f).age = s.age := rfl
@[simp] theorem State.mapBst_pmb (s : State) (f : Bst → Bst) : (s.mapBst f).pmb = s.pmb := rfl
@[simp] theorem State.mapBst_dbk (s : State) (f : Bst → Bst) : (s.mapBst f).dbk = s.dbk := rfl

@[simp] theorem State.mapSrm_pending (s : State) (f : Srm → Srm) : (s.mapSrm f).pending = s.pending := rfl
@[simp] theorem State.mapSrm_readData (s : State) (f : Srm → Srm) : (s.mapSrm f).readData = s.readData := rfl
@[simp] theorem State.mapSrm_freeCount (s : State) (f : Srm → Srm) : (s.mapSrm f).freeCount = s.freeCount := rfl
@[simp] theorem State.mapSrm_dramMib (s : State) (f : Srm → Srm) : (s.mapSrm f).dramMib = s.dramMib := rfl
@[simp] theorem State.mapSrm_dram (s : State) (f : Srm → Srm) : (s.mapSrm f).dram = s.dram := rfl
@[simp] theorem State.mapSrm_glb (s : State) (f : Srm → Srm) : (s.mapSrm f).glb = s.glb := rfl
@[simp] theorem State.mapSrm_clk (s : State) (f : Srm → Srm) : (s.mapSrm f).clk = s.clk := rfl
@[simp] theorem State.mapSrm_tim (s : State) (f : Srm → Srm) : (s.mapSrm f).tim = s.tim := rfl
@[simp] theorem State.mapSrm_cht (s : State) (f : Srm → Srm) : (s.mapSrm f).cht = s.cht := rfl
@[simp] theorem State.mapSrm_cyc (s : State) (f : Srm → Srm) : (s.mapSrm f).cyc = s.cyc := rfl
@[simp] theorem State.mapSrm_pages (s : State) (f : Srm → Srm) : (s.mapSrm f).pages = s.pages := rfl
@[simp] theorem State.mapSrm_axes (s : State) (f : Srm → Srm) : (s.mapSrm f).axes = s.axes := rfl
@[simp] theorem State.mapSrm_code (s : State) (f : Srm → Srm) : (s.mapSrm f).code = s.code := rfl
@[simp] theorem State.mapSrm_lanes (s : State) (f : Srm → Srm) : (s.mapSrm f).lanes = s.lanes := rfl
@[simp] theorem State.mapSrm_teller (s : State) (f : Srm → Srm) : (s.mapSrm f).teller = s.teller := rfl
@[simp] theorem State.mapSrm_ledger (s : State) (f : Srm → Srm) : (s.mapSrm f).ledger = s.ledger := rfl
@[simp] theorem State.mapSrm_arb (s : State) (f : Srm → Srm) : (s.mapSrm f).arb = s.arb := rfl
@[simp] theorem State.mapSrm_ports (s : State) (f : Srm → Srm) : (s.mapSrm f).ports = s.ports := rfl
@[simp] theorem State.mapSrm_stations (s : State) (f : Srm → Srm) : (s.mapSrm f).stations = s.stations := rfl
@[simp] theorem State.mapSrm_dsc (s : State) (f : Srm → Srm) : (s.mapSrm f).dsc = s.dsc := rfl
@[simp] theorem State.mapSrm_io (s : State) (f : Srm → Srm) : (s.mapSrm f).io = s.io := rfl
@[simp] theorem State.mapSrm_acq (s : State) (f : Srm → Srm) : (s.mapSrm f).acq = s.acq := rfl
@[simp] theorem State.mapSrm_par (s : State) (f : Srm → Srm) : (s.mapSrm f).par = s.par := rfl
@[simp] theorem State.mapSrm_ptb (s : State) (f : Srm → Srm) : (s.mapSrm f).ptb = s.ptb := rfl
@[simp] theorem State.mapSrm_bst (s : State) (f : Srm → Srm) : (s.mapSrm f).bst = s.bst := rfl
@[simp] theorem State.mapSrm_srm (s : State) (f : Srm → Srm) : (s.mapSrm f).srm = f s.srm := rfl
@[simp] theorem State.mapSrm_age (s : State) (f : Srm → Srm) : (s.mapSrm f).age = s.age := rfl
@[simp] theorem State.mapSrm_pmb (s : State) (f : Srm → Srm) : (s.mapSrm f).pmb = s.pmb := rfl
@[simp] theorem State.mapSrm_dbk (s : State) (f : Srm → Srm) : (s.mapSrm f).dbk = s.dbk := rfl

@[simp] theorem State.mapAge_pending (s : State) (f : Age → Age) : (s.mapAge f).pending = s.pending := rfl
@[simp] theorem State.mapAge_readData (s : State) (f : Age → Age) : (s.mapAge f).readData = s.readData := rfl
@[simp] theorem State.mapAge_freeCount (s : State) (f : Age → Age) : (s.mapAge f).freeCount = s.freeCount := rfl
@[simp] theorem State.mapAge_dramMib (s : State) (f : Age → Age) : (s.mapAge f).dramMib = s.dramMib := rfl
@[simp] theorem State.mapAge_dram (s : State) (f : Age → Age) : (s.mapAge f).dram = s.dram := rfl
@[simp] theorem State.mapAge_glb (s : State) (f : Age → Age) : (s.mapAge f).glb = s.glb := rfl
@[simp] theorem State.mapAge_clk (s : State) (f : Age → Age) : (s.mapAge f).clk = s.clk := rfl
@[simp] theorem State.mapAge_tim (s : State) (f : Age → Age) : (s.mapAge f).tim = s.tim := rfl
@[simp] theorem State.mapAge_cht (s : State) (f : Age → Age) : (s.mapAge f).cht = s.cht := rfl
@[simp] theorem State.mapAge_cyc (s : State) (f : Age → Age) : (s.mapAge f).cyc = s.cyc := rfl
@[simp] theorem State.mapAge_pages (s : State) (f : Age → Age) : (s.mapAge f).pages = s.pages := rfl
@[simp] theorem State.mapAge_axes (s : State) (f : Age → Age) : (s.mapAge f).axes = s.axes := rfl
@[simp] theorem State.mapAge_code (s : State) (f : Age → Age) : (s.mapAge f).code = s.code := rfl
@[simp] theorem State.mapAge_lanes (s : State) (f : Age → Age) : (s.mapAge f).lanes = s.lanes := rfl
@[simp] theorem State.mapAge_teller (s : State) (f : Age → Age) : (s.mapAge f).teller = s.teller := rfl
@[simp] theorem State.mapAge_ledger (s : State) (f : Age → Age) : (s.mapAge f).ledger = s.ledger := rfl
@[simp] theorem State.mapAge_arb (s : State) (f : Age → Age) : (s.mapAge f).arb = s.arb := rfl
@[simp] theorem State.mapAge_ports (s : State) (f : Age → Age) : (s.mapAge f).ports = s.ports := rfl
@[simp] theorem State.mapAge_stations (s : State) (f : Age → Age) : (s.mapAge f).stations = s.stations := rfl
@[simp] theorem State.mapAge_dsc (s : State) (f : Age → Age) : (s.mapAge f).dsc = s.dsc := rfl
@[simp] theorem State.mapAge_io (s : State) (f : Age → Age) : (s.mapAge f).io = s.io := rfl
@[simp] theorem State.mapAge_acq (s : State) (f : Age → Age) : (s.mapAge f).acq = s.acq := rfl
@[simp] theorem State.mapAge_par (s : State) (f : Age → Age) : (s.mapAge f).par = s.par := rfl
@[simp] theorem State.mapAge_ptb (s : State) (f : Age → Age) : (s.mapAge f).ptb = s.ptb := rfl
@[simp] theorem State.mapAge_bst (s : State) (f : Age → Age) : (s.mapAge f).bst = s.bst := rfl
@[simp] theorem State.mapAge_srm (s : State) (f : Age → Age) : (s.mapAge f).srm = s.srm := rfl
@[simp] theorem State.mapAge_age (s : State) (f : Age → Age) : (s.mapAge f).age = f s.age := rfl
@[simp] theorem State.mapAge_pmb (s : State) (f : Age → Age) : (s.mapAge f).pmb = s.pmb := rfl
@[simp] theorem State.mapAge_dbk (s : State) (f : Age → Age) : (s.mapAge f).dbk = s.dbk := rfl

@[simp] theorem State.mapPmb_pending (s : State) (f : Pmb → Pmb) : (s.mapPmb f).pending = s.pending := rfl
@[simp] theorem State.mapPmb_readData (s : State) (f : Pmb → Pmb) : (s.mapPmb f).readData = s.readData := rfl
@[simp] theorem State.mapPmb_freeCount (s : State) (f : Pmb → Pmb) : (s.mapPmb f).freeCount = s.freeCount := rfl
@[simp] theorem State.mapPmb_dramMib (s : State) (f : Pmb → Pmb) : (s.mapPmb f).dramMib = s.dramMib := rfl
@[simp] theorem State.mapPmb_dram (s : State) (f : Pmb → Pmb) : (s.mapPmb f).dram = s.dram := rfl
@[simp] theorem State.mapPmb_glb (s : State) (f : Pmb → Pmb) : (s.mapPmb f).glb = s.glb := rfl
@[simp] theorem State.mapPmb_clk (s : State) (f : Pmb → Pmb) : (s.mapPmb f).clk = s.clk := rfl
@[simp] theorem State.mapPmb_tim (s : State) (f : Pmb → Pmb) : (s.mapPmb f).tim = s.tim := rfl
@[simp] theorem State.mapPmb_cht (s : State) (f : Pmb → Pmb) : (s.mapPmb f).cht = s.cht := rfl
@[simp] theorem State.mapPmb_cyc (s : State) (f : Pmb → Pmb) : (s.mapPmb f).cyc = s.cyc := rfl
@[simp] theorem State.mapPmb_pages (s : State) (f : Pmb → Pmb) : (s.mapPmb f).pages = s.pages := rfl
@[simp] theorem State.mapPmb_axes (s : State) (f : Pmb → Pmb) : (s.mapPmb f).axes = s.axes := rfl
@[simp] theorem State.mapPmb_code (s : State) (f : Pmb → Pmb) : (s.mapPmb f).code = s.code := rfl
@[simp] theorem State.mapPmb_lanes (s : State) (f : Pmb → Pmb) : (s.mapPmb f).lanes = s.lanes := rfl
@[simp] theorem State.mapPmb_teller (s : State) (f : Pmb → Pmb) : (s.mapPmb f).teller = s.teller := rfl
@[simp] theorem State.mapPmb_ledger (s : State) (f : Pmb → Pmb) : (s.mapPmb f).ledger = s.ledger := rfl
@[simp] theorem State.mapPmb_arb (s : State) (f : Pmb → Pmb) : (s.mapPmb f).arb = s.arb := rfl
@[simp] theorem State.mapPmb_ports (s : State) (f : Pmb → Pmb) : (s.mapPmb f).ports = s.ports := rfl
@[simp] theorem State.mapPmb_stations (s : State) (f : Pmb → Pmb) : (s.mapPmb f).stations = s.stations := rfl
@[simp] theorem State.mapPmb_dsc (s : State) (f : Pmb → Pmb) : (s.mapPmb f).dsc = s.dsc := rfl
@[simp] theorem State.mapPmb_io (s : State) (f : Pmb → Pmb) : (s.mapPmb f).io = s.io := rfl
@[simp] theorem State.mapPmb_acq (s : State) (f : Pmb → Pmb) : (s.mapPmb f).acq = s.acq := rfl
@[simp] theorem State.mapPmb_par (s : State) (f : Pmb → Pmb) : (s.mapPmb f).par = s.par := rfl
@[simp] theorem State.mapPmb_ptb (s : State) (f : Pmb → Pmb) : (s.mapPmb f).ptb = s.ptb := rfl
@[simp] theorem State.mapPmb_bst (s : State) (f : Pmb → Pmb) : (s.mapPmb f).bst = s.bst := rfl
@[simp] theorem State.mapPmb_srm (s : State) (f : Pmb → Pmb) : (s.mapPmb f).srm = s.srm := rfl
@[simp] theorem State.mapPmb_age (s : State) (f : Pmb → Pmb) : (s.mapPmb f).age = s.age := rfl
@[simp] theorem State.mapPmb_pmb (s : State) (f : Pmb → Pmb) : (s.mapPmb f).pmb = f s.pmb := rfl
@[simp] theorem State.mapPmb_dbk (s : State) (f : Pmb → Pmb) : (s.mapPmb f).dbk = s.dbk := rfl

@[simp] theorem State.mapDbk_pending (s : State) (f : Dbk → Dbk) : (s.mapDbk f).pending = s.pending := rfl
@[simp] theorem State.mapDbk_readData (s : State) (f : Dbk → Dbk) : (s.mapDbk f).readData = s.readData := rfl
@[simp] theorem State.mapDbk_freeCount (s : State) (f : Dbk → Dbk) : (s.mapDbk f).freeCount = s.freeCount := rfl
@[simp] theorem State.mapDbk_dramMib (s : State) (f : Dbk → Dbk) : (s.mapDbk f).dramMib = s.dramMib := rfl
@[simp] theorem State.mapDbk_dram (s : State) (f : Dbk → Dbk) : (s.mapDbk f).dram = s.dram := rfl
@[simp] theorem State.mapDbk_glb (s : State) (f : Dbk → Dbk) : (s.mapDbk f).glb = s.glb := rfl
@[simp] theorem State.mapDbk_clk (s : State) (f : Dbk → Dbk) : (s.mapDbk f).clk = s.clk := rfl
@[simp] theorem State.mapDbk_tim (s : State) (f : Dbk → Dbk) : (s.mapDbk f).tim = s.tim := rfl
@[simp] theorem State.mapDbk_cht (s : State) (f : Dbk → Dbk) : (s.mapDbk f).cht = s.cht := rfl
@[simp] theorem State.mapDbk_cyc (s : State) (f : Dbk → Dbk) : (s.mapDbk f).cyc = s.cyc := rfl
@[simp] theorem State.mapDbk_pages (s : State) (f : Dbk → Dbk) : (s.mapDbk f).pages = s.pages := rfl
@[simp] theorem State.mapDbk_axes (s : State) (f : Dbk → Dbk) : (s.mapDbk f).axes = s.axes := rfl
@[simp] theorem State.mapDbk_code (s : State) (f : Dbk → Dbk) : (s.mapDbk f).code = s.code := rfl
@[simp] theorem State.mapDbk_lanes (s : State) (f : Dbk → Dbk) : (s.mapDbk f).lanes = s.lanes := rfl
@[simp] theorem State.mapDbk_teller (s : State) (f : Dbk → Dbk) : (s.mapDbk f).teller = s.teller := rfl
@[simp] theorem State.mapDbk_ledger (s : State) (f : Dbk → Dbk) : (s.mapDbk f).ledger = s.ledger := rfl
@[simp] theorem State.mapDbk_arb (s : State) (f : Dbk → Dbk) : (s.mapDbk f).arb = s.arb := rfl
@[simp] theorem State.mapDbk_ports (s : State) (f : Dbk → Dbk) : (s.mapDbk f).ports = s.ports := rfl
@[simp] theorem State.mapDbk_stations (s : State) (f : Dbk → Dbk) : (s.mapDbk f).stations = s.stations := rfl
@[simp] theorem State.mapDbk_dsc (s : State) (f : Dbk → Dbk) : (s.mapDbk f).dsc = s.dsc := rfl
@[simp] theorem State.mapDbk_io (s : State) (f : Dbk → Dbk) : (s.mapDbk f).io = s.io := rfl
@[simp] theorem State.mapDbk_acq (s : State) (f : Dbk → Dbk) : (s.mapDbk f).acq = s.acq := rfl
@[simp] theorem State.mapDbk_par (s : State) (f : Dbk → Dbk) : (s.mapDbk f).par = s.par := rfl
@[simp] theorem State.mapDbk_ptb (s : State) (f : Dbk → Dbk) : (s.mapDbk f).ptb = s.ptb := rfl
@[simp] theorem State.mapDbk_bst (s : State) (f : Dbk → Dbk) : (s.mapDbk f).bst = s.bst := rfl
@[simp] theorem State.mapDbk_srm (s : State) (f : Dbk → Dbk) : (s.mapDbk f).srm = s.srm := rfl
@[simp] theorem State.mapDbk_age (s : State) (f : Dbk → Dbk) : (s.mapDbk f).age = s.age := rfl
@[simp] theorem State.mapDbk_pmb (s : State) (f : Dbk → Dbk) : (s.mapDbk f).pmb = s.pmb := rfl
@[simp] theorem State.mapDbk_dbk (s : State) (f : Dbk → Dbk) : (s.mapDbk f).dbk = f s.dbk := rfl

@[simp] theorem State.mapLane_pending (s : State) (n : Nat) (f : Lane → Lane) : (s.mapLane n f).pending = s.pending := rfl
@[simp] theorem State.mapLane_readData (s : State) (n : Nat) (f : Lane → Lane) : (s.mapLane n f).readData = s.readData := rfl
@[simp] theorem State.mapLane_freeCount (s : State) (n : Nat) (f : Lane → Lane) : (s.mapLane n f).freeCount = s.freeCount := rfl
@[simp] theorem State.mapLane_dramMib (s : State) (n : Nat) (f : Lane → Lane) : (s.mapLane n f).dramMib = s.dramMib := rfl
@[simp] theorem State.mapLane_dram (s : State) (n : Nat) (f : Lane → Lane) : (s.mapLane n f).dram = s.dram := rfl
@[simp] theorem State.mapLane_glb (s : State) (n : Nat) (f : Lane → Lane) : (s.mapLane n f).glb = s.glb := rfl
@[simp] theorem State.mapLane_clk (s : State) (n : Nat) (f : Lane → Lane) : (s.mapLane n f).clk = s.clk := rfl
@[simp] theorem State.mapLane_tim (s : State) (n : Nat) (f : Lane → Lane) : (s.mapLane n f).tim = s.tim := rfl
@[simp] theorem State.mapLane_cht (s : State) (n : Nat) (f : Lane → Lane) : (s.mapLane n f).cht = s.cht := rfl
@[simp] theorem State.mapLane_cyc (s : State) (n : Nat) (f : Lane → Lane) : (s.mapLane n f).cyc = s.cyc := rfl
@[simp] theorem State.mapLane_pages (s : State) (n : Nat) (f : Lane → Lane) : (s.mapLane n f).pages = s.pages := rfl
@[simp] theorem State.mapLane_axes (s : State) (n : Nat) (f : Lane → Lane) : (s.mapLane n f).axes = s.axes := rfl
@[simp] theorem State.mapLane_code (s : State) (n : Nat) (f : Lane → Lane) : (s.mapLane n f).code = s.code := rfl
@[simp] theorem State.mapLane_lanes (s : State) (n : Nat) (f : Lane → Lane) : (s.mapLane n f).lanes = setAt s.lanes n f := rfl
@[simp] theorem State.mapLane_teller (s : State) (n : Nat) (f : Lane → Lane) : (s.mapLane n f).teller = s.teller := rfl
@[simp] theorem State.mapLane_ledger (s : State) (n : Nat) (f : Lane → Lane) : (s.mapLane n f).ledger = s.ledger := rfl
@[simp] theorem State.mapLane_arb (s : State) (n : Nat) (f : Lane → Lane) : (s.mapLane n f).arb = s.arb := rfl
@[simp] theorem State.mapLane_ports (s : State) (n : Nat) (f : Lane → Lane) : (s.mapLane n f).ports = s.ports := rfl
@[simp] theorem State.mapLane_stations (s : State) (n : Nat) (f : Lane → Lane) : (s.mapLane n f).stations = s.stations := rfl
@[simp] theorem State.mapLane_dsc (s : State) (n : Nat) (f : Lane → Lane) : (s.mapLane n f).dsc = s.dsc := rfl
@[simp] theorem State.mapLane_io (s : State) (n : Nat) (f : Lane → Lane) : (s.mapLane n f).io = s.io := rfl
@[simp] theorem State.mapLane_acq (s : State) (n : Nat) (f : Lane → Lane) : (s.mapLane n f).acq = s.acq := rfl
@[simp] theorem State.mapLane_par (s : State) (n : Nat) (f : Lane → Lane) : (s.mapLane n f).par = s.par := rfl
@[simp] theorem State.mapLane_ptb (s : State) (n : Nat) (f : Lane → Lane) : (s.mapLane n f).ptb = s.ptb := rfl
@[simp] theorem State.mapLane_bst (s : State) (n : Nat) (f : Lane → Lane) : (s.mapLane n f).bst = s.bst := rfl
@[simp] theorem State.mapLane_srm (s : State) (n : Nat) (f : Lane → Lane) : (s.mapLane n f).srm = s.srm := rfl
@[simp] theorem State.mapLane_age (s : State) (n : Nat) (f : Lane → Lane) : (s.mapLane n f).age = s.age := rfl
@[simp] theorem State.mapLane_pmb (s : State) (n : Nat) (f : Lane → Lane) : (s.mapLane n f).pmb = s.pmb := rfl
@[simp] theorem State.mapLane_dbk (s : State) (n : Nat) (f : Lane → Lane) : (s.mapLane n f).dbk = s.dbk := rfl

@[simp] theorem State.mapAxis_pending (s : State) (n : Nat) (f : Axis → Axis) : (s.mapAxis n f).pending = s.pending := rfl
@[simp] theorem State.mapAxis_readData (s : State) (n : Nat) (f : Axis → Axis) : (s.mapAxis n f).readData = s.readData := rfl
@[simp] theorem State.mapAxis_freeCount (s : State) (n : Nat) (f : Axis → Axis) : (s.mapAxis n f).freeCount = s.freeCount := rfl
@[simp] theorem State.mapAxis_dramMib (s : State) (n : Nat) (f : Axis → Axis) : (s.mapAxis n f).dramMib = s.dramMib := rfl
@[simp] theorem State.mapAxis_dram (s : State) (n : Nat) (f : Axis → Axis) : (s.mapAxis n f).dram = s.dram := rfl
@[simp] theorem State.mapAxis_glb (s : State) (n : Nat) (f : Axis → Axis) : (s.mapAxis n f).glb = s.glb := rfl
@[simp] theorem State.mapAxis_clk (s : State) (n : Nat) (f : Axis → Axis) : (s.mapAxis n f).clk = s.clk := rfl
@[simp] theorem State.mapAxis_tim (s : State) (n : Nat) (f : Axis → Axis) : (s.mapAxis n f).tim = s.tim := rfl
@[simp] theorem State.mapAxis_cht (s : State) (n : Nat) (f : Axis → Axis) : (s.mapAxis n f).cht = s.cht := rfl
@[simp] theorem State.mapAxis_cyc (s : State) (n : Nat) (f : Axis → Axis) : (s.mapAxis n f).cyc = s.cyc := rfl
@[simp] theorem State.mapAxis_pages (s : State) (n : Nat) (f : Axis → Axis) : (s.mapAxis n f).pages = s.pages := rfl
@[simp] theorem State.mapAxis_axes (s : State) (n : Nat) (f : Axis → Axis) : (s.mapAxis n f).axes = setAt s.axes n f := rfl
@[simp] theorem State.mapAxis_code (s : State) (n : Nat) (f : Axis → Axis) : (s.mapAxis n f).code = s.code := rfl
@[simp] theorem State.mapAxis_lanes (s : State) (n : Nat) (f : Axis → Axis) : (s.mapAxis n f).lanes = s.lanes := rfl
@[simp] theorem State.mapAxis_teller (s : State) (n : Nat) (f : Axis → Axis) : (s.mapAxis n f).teller = s.teller := rfl
@[simp] theorem State.mapAxis_ledger (s : State) (n : Nat) (f : Axis → Axis) : (s.mapAxis n f).ledger = s.ledger := rfl
@[simp] theorem State.mapAxis_arb (s : State) (n : Nat) (f : Axis → Axis) : (s.mapAxis n f).arb = s.arb := rfl
@[simp] theorem State.mapAxis_ports (s : State) (n : Nat) (f : Axis → Axis) : (s.mapAxis n f).ports = s.ports := rfl
@[simp] theorem State.mapAxis_stations (s : State) (n : Nat) (f : Axis → Axis) : (s.mapAxis n f).stations = s.stations := rfl
@[simp] theorem State.mapAxis_dsc (s : State) (n : Nat) (f : Axis → Axis) : (s.mapAxis n f).dsc = s.dsc := rfl
@[simp] theorem State.mapAxis_io (s : State) (n : Nat) (f : Axis → Axis) : (s.mapAxis n f).io = s.io := rfl
@[simp] theorem State.mapAxis_acq (s : State) (n : Nat) (f : Axis → Axis) : (s.mapAxis n f).acq = s.acq := rfl
@[simp] theorem State.mapAxis_par (s : State) (n : Nat) (f : Axis → Axis) : (s.mapAxis n f).par = s.par := rfl
@[simp] theorem State.mapAxis_ptb (s : State) (n : Nat) (f : Axis → Axis) : (s.mapAxis n f).ptb = s.ptb := rfl
@[simp] theorem State.mapAxis_bst (s : State) (n : Nat) (f : Axis → Axis) : (s.mapAxis n f).bst = s.bst := rfl
@[simp] theorem State.mapAxis_srm (s : State) (n : Nat) (f : Axis → Axis) : (s.mapAxis n f).srm = s.srm := rfl
@[simp] theorem State.mapAxis_age (s : State) (n : Nat) (f : Axis → Axis) : (s.mapAxis n f).age = s.age := rfl
@[simp] theorem State.mapAxis_pmb (s : State) (n : Nat) (f : Axis → Axis) : (s.mapAxis n f).pmb = s.pmb := rfl
@[simp] theorem State.mapAxis_dbk (s : State) (n : Nat) (f : Axis → Axis) : (s.mapAxis n f).dbk = s.dbk := rfl

@[simp] theorem State.mapPort_pending (s : State) (n : Nat) (f : Port → Port) : (s.mapPort n f).pending = s.pending := rfl
@[simp] theorem State.mapPort_readData (s : State) (n : Nat) (f : Port → Port) : (s.mapPort n f).readData = s.readData := rfl
@[simp] theorem State.mapPort_freeCount (s : State) (n : Nat) (f : Port → Port) : (s.mapPort n f).freeCount = s.freeCount := rfl
@[simp] theorem State.mapPort_dramMib (s : State) (n : Nat) (f : Port → Port) : (s.mapPort n f).dramMib = s.dramMib := rfl
@[simp] theorem State.mapPort_dram (s : State) (n : Nat) (f : Port → Port) : (s.mapPort n f).dram = s.dram := rfl
@[simp] theorem State.mapPort_glb (s : State) (n : Nat) (f : Port → Port) : (s.mapPort n f).glb = s.glb := rfl
@[simp] theorem State.mapPort_clk (s : State) (n : Nat) (f : Port → Port) : (s.mapPort n f).clk = s.clk := rfl
@[simp] theorem State.mapPort_tim (s : State) (n : Nat) (f : Port → Port) : (s.mapPort n f).tim = s.tim := rfl
@[simp] theorem State.mapPort_cht (s : State) (n : Nat) (f : Port → Port) : (s.mapPort n f).cht = s.cht := rfl
@[simp] theorem State.mapPort_cyc (s : State) (n : Nat) (f : Port → Port) : (s.mapPort n f).cyc = s.cyc := rfl
@[simp] theorem State.mapPort_pages (s : State) (n : Nat) (f : Port → Port) : (s.mapPort n f).pages = s.pages := rfl
@[simp] theorem State.mapPort_axes (s : State) (n : Nat) (f : Port → Port) : (s.mapPort n f).axes = s.axes := rfl
@[simp] theorem State.mapPort_code (s : State) (n : Nat) (f : Port → Port) : (s.mapPort n f).code = s.code := rfl
@[simp] theorem State.mapPort_lanes (s : State) (n : Nat) (f : Port → Port) : (s.mapPort n f).lanes = s.lanes := rfl
@[simp] theorem State.mapPort_teller (s : State) (n : Nat) (f : Port → Port) : (s.mapPort n f).teller = s.teller := rfl
@[simp] theorem State.mapPort_ledger (s : State) (n : Nat) (f : Port → Port) : (s.mapPort n f).ledger = s.ledger := rfl
@[simp] theorem State.mapPort_arb (s : State) (n : Nat) (f : Port → Port) : (s.mapPort n f).arb = s.arb := rfl
@[simp] theorem State.mapPort_ports (s : State) (n : Nat) (f : Port → Port) : (s.mapPort n f).ports = setAt s.ports n f := rfl
@[simp] theorem State.mapPort_stations (s : State) (n : Nat) (f : Port → Port) : (s.mapPort n f).stations = s.stations := rfl
@[simp] theorem State.mapPort_dsc (s : State) (n : Nat) (f : Port → Port) : (s.mapPort n f).dsc = s.dsc := rfl
@[simp] theorem State.mapPort_io (s : State) (n : Nat) (f : Port → Port) : (s.mapPort n f).io = s.io := rfl
@[simp] theorem State.mapPort_acq (s : State) (n : Nat) (f : Port → Port) : (s.mapPort n f).acq = s.acq := rfl
@[simp] theorem State.mapPort_par (s : State) (n : Nat) (f : Port → Port) : (s.mapPort n f).par = s.par := rfl
@[simp] theorem State.mapPort_ptb (s : State) (n : Nat) (f : Port → Port) : (s.mapPort n f).ptb = s.ptb := rfl
@[simp] theorem State.mapPort_bst (s : State) (n : Nat) (f : Port → Port) : (s.mapPort n f).bst = s.bst := rfl
@[simp] theorem State.mapPort_srm (s : State) (n : Nat) (f : Port → Port) : (s.mapPort n f).srm = s.srm := rfl
@[simp] theorem State.mapPort_age (s : State) (n : Nat) (f : Port → Port) : (s.mapPort n f).age = s.age := rfl
@[simp] theorem State.mapPort_pmb (s : State) (n : Nat) (f : Port → Port) : (s.mapPort n f).pmb = s.pmb := rfl
@[simp] theorem State.mapPort_dbk (s : State) (n : Nat) (f : Port → Port) : (s.mapPort n f).dbk = s.dbk := rfl

@[simp] theorem State.mapStation_pending (s : State) (n : Nat) (f : Station → Station) : (s.mapStation n f).pending = s.pending := rfl
@[simp] theorem State.mapStation_readData (s : State) (n : Nat) (f : Station → Station) : (s.mapStation n f).readData = s.readData := rfl
@[simp] theorem State.mapStation_freeCount (s : State) (n : Nat) (f : Station → Station) : (s.mapStation n f).freeCount = s.freeCount := rfl
@[simp] theorem State.mapStation_dramMib (s : State) (n : Nat) (f : Station → Station) : (s.mapStation n f).dramMib = s.dramMib := rfl
@[simp] theorem State.mapStation_dram (s : State) (n : Nat) (f : Station → Station) : (s.mapStation n f).dram = s.dram := rfl
@[simp] theorem State.mapStation_glb (s : State) (n : Nat) (f : Station → Station) : (s.mapStation n f).glb = s.glb := rfl
@[simp] theorem State.mapStation_clk (s : State) (n : Nat) (f : Station → Station) : (s.mapStation n f).clk = s.clk := rfl
@[simp] theorem State.mapStation_tim (s : State) (n : Nat) (f : Station → Station) : (s.mapStation n f).tim = s.tim := rfl
@[simp] theorem State.mapStation_cht (s : State) (n : Nat) (f : Station → Station) : (s.mapStation n f).cht = s.cht := rfl
@[simp] theorem State.mapStation_cyc (s : State) (n : Nat) (f : Station → Station) : (s.mapStation n f).cyc = s.cyc := rfl
@[simp] theorem State.mapStation_pages (s : State) (n : Nat) (f : Station → Station) : (s.mapStation n f).pages = s.pages := rfl
@[simp] theorem State.mapStation_axes (s : State) (n : Nat) (f : Station → Station) : (s.mapStation n f).axes = s.axes := rfl
@[simp] theorem State.mapStation_code (s : State) (n : Nat) (f : Station → Station) : (s.mapStation n f).code = s.code := rfl
@[simp] theorem State.mapStation_lanes (s : State) (n : Nat) (f : Station → Station) : (s.mapStation n f).lanes = s.lanes := rfl
@[simp] theorem State.mapStation_teller (s : State) (n : Nat) (f : Station → Station) : (s.mapStation n f).teller = s.teller := rfl
@[simp] theorem State.mapStation_ledger (s : State) (n : Nat) (f : Station → Station) : (s.mapStation n f).ledger = s.ledger := rfl
@[simp] theorem State.mapStation_arb (s : State) (n : Nat) (f : Station → Station) : (s.mapStation n f).arb = s.arb := rfl
@[simp] theorem State.mapStation_ports (s : State) (n : Nat) (f : Station → Station) : (s.mapStation n f).ports = s.ports := rfl
@[simp] theorem State.mapStation_stations (s : State) (n : Nat) (f : Station → Station) : (s.mapStation n f).stations = setAt s.stations n f := rfl
@[simp] theorem State.mapStation_dsc (s : State) (n : Nat) (f : Station → Station) : (s.mapStation n f).dsc = s.dsc := rfl
@[simp] theorem State.mapStation_io (s : State) (n : Nat) (f : Station → Station) : (s.mapStation n f).io = s.io := rfl
@[simp] theorem State.mapStation_acq (s : State) (n : Nat) (f : Station → Station) : (s.mapStation n f).acq = s.acq := rfl
@[simp] theorem State.mapStation_par (s : State) (n : Nat) (f : Station → Station) : (s.mapStation n f).par = s.par := rfl
@[simp] theorem State.mapStation_ptb (s : State) (n : Nat) (f : Station → Station) : (s.mapStation n f).ptb = s.ptb := rfl
@[simp] theorem State.mapStation_bst (s : State) (n : Nat) (f : Station → Station) : (s.mapStation n f).bst = s.bst := rfl
@[simp] theorem State.mapStation_srm (s : State) (n : Nat) (f : Station → Station) : (s.mapStation n f).srm = s.srm := rfl
@[simp] theorem State.mapStation_age (s : State) (n : Nat) (f : Station → Station) : (s.mapStation n f).age = s.age := rfl
@[simp] theorem State.mapStation_pmb (s : State) (n : Nat) (f : Station → Station) : (s.mapStation n f).pmb = s.pmb := rfl
@[simp] theorem State.mapStation_dbk (s : State) (n : Nat) (f : Station → Station) : (s.mapStation n f).dbk = s.dbk := rfl

@[simp] theorem State.drawn_pending (s : State) (n : Nat) : (s.drawn n).pending = s.pending := rfl
@[simp] theorem State.drawn_readData (s : State) (n : Nat) : (s.drawn n).readData = s.readData := rfl
@[simp] theorem State.drawn_freeCount (s : State) (n : Nat) : (s.drawn n).freeCount = s.freeCount + n := rfl
@[simp] theorem State.drawn_dramMib (s : State) (n : Nat) : (s.drawn n).dramMib = s.dramMib := rfl
@[simp] theorem State.drawn_dram (s : State) (n : Nat) : (s.drawn n).dram = s.dram := rfl
@[simp] theorem State.drawn_glb (s : State) (n : Nat) : (s.drawn n).glb = s.glb := rfl
@[simp] theorem State.drawn_clk (s : State) (n : Nat) : (s.drawn n).clk = s.clk := rfl
@[simp] theorem State.drawn_tim (s : State) (n : Nat) : (s.drawn n).tim = s.tim := rfl
@[simp] theorem State.drawn_cht (s : State) (n : Nat) : (s.drawn n).cht = s.cht := rfl
@[simp] theorem State.drawn_cyc (s : State) (n : Nat) : (s.drawn n).cyc = s.cyc := rfl
@[simp] theorem State.drawn_pages (s : State) (n : Nat) : (s.drawn n).pages = s.pages := rfl
@[simp] theorem State.drawn_axes (s : State) (n : Nat) : (s.drawn n).axes = s.axes := rfl
@[simp] theorem State.drawn_code (s : State) (n : Nat) : (s.drawn n).code = s.code := rfl
@[simp] theorem State.drawn_lanes (s : State) (n : Nat) : (s.drawn n).lanes = s.lanes := rfl
@[simp] theorem State.drawn_teller (s : State) (n : Nat) : (s.drawn n).teller = s.teller := rfl
@[simp] theorem State.drawn_ledger (s : State) (n : Nat) : (s.drawn n).ledger = s.ledger := rfl
@[simp] theorem State.drawn_arb (s : State) (n : Nat) : (s.drawn n).arb = s.arb := rfl
@[simp] theorem State.drawn_ports (s : State) (n : Nat) : (s.drawn n).ports = s.ports := rfl
@[simp] theorem State.drawn_stations (s : State) (n : Nat) : (s.drawn n).stations = s.stations := rfl
@[simp] theorem State.drawn_dsc (s : State) (n : Nat) : (s.drawn n).dsc = s.dsc := rfl
@[simp] theorem State.drawn_io (s : State) (n : Nat) : (s.drawn n).io = s.io := rfl
@[simp] theorem State.drawn_acq (s : State) (n : Nat) : (s.drawn n).acq = s.acq := rfl
@[simp] theorem State.drawn_par (s : State) (n : Nat) : (s.drawn n).par = s.par := rfl
@[simp] theorem State.drawn_ptb (s : State) (n : Nat) : (s.drawn n).ptb = s.ptb := rfl
@[simp] theorem State.drawn_bst (s : State) (n : Nat) : (s.drawn n).bst = s.bst := rfl
@[simp] theorem State.drawn_srm (s : State) (n : Nat) : (s.drawn n).srm = s.srm := rfl
@[simp] theorem State.drawn_age (s : State) (n : Nat) : (s.drawn n).age = s.age := rfl
@[simp] theorem State.drawn_pmb (s : State) (n : Nat) : (s.drawn n).pmb = s.pmb := rfl
@[simp] theorem State.drawn_dbk (s : State) (n : Nat) : (s.drawn n).dbk = s.dbk := rfl

end Sys2Proof.Machine
end

