-- ==== Sys2Proof/Tests/Slice0.lean ====
section
/-!
SUPPORT. Tests: ill-formed commands that WellFormed refuses, values worked out in the chapters of spec/ or in the standards they
name, single steps, and for each statement of Obligations a concrete state that meets its hypotheses.
-/
set_option Elab.async false

namespace Sys2Proof.Tests
open Sys2Proof Sys2Proof.Machine

/-! ## Helpers -/

/-- A P, I or C word with every field 0. -/
def p0 : PFields := { acc := 0, xs := 0, ys := 0, sh := 0, sat := false, mx := 0, my := 0 }
def i0 : IFields := { dst := 0, src := 0, rr := false, rsvd := 0, imm := 0 }
def c0 : CFields := { reg := 0, cond := 0, imm16 := 0, rsvd := 0, target := 0 }
/-- A message, a return slot and a return frame without content. -/
def msg0 : Msg := { hdr := 0, payload := [], crcRx := 0x84C0 }
def slot0 : RetSlot := { fill := false, crcRx := 0x6A0A, babble := false, lastNs := 0, hdr := [0, 0, 0, 0], body := [], msgs := [] }
def frame0 : RetFrame := { due := true, rarrUi := 0, hdr := [2, 0], hdrCrc := 0xBE98, symErrs := 0, slots := [], len := 0 }
def reply0 : DiscReply := { hdr := [0x104, 6, 0, 0], hdrCrc := 0x4F1A, symErrs := 0, rarrUi := 0, cells := [] }
def cell0 : Cell := { fill := true, status := [0x03FF0000, 0, 0, 0], crcRx := 0x193B, babble := false, msg := none }
def hdr0 : IssueHdr := { hdr := [1, 0, 0, 0, 0, 0, 0, 0, 0], crcRx := 0xA874, arrUi := 0, symErrs := 0 }
def beat0 : HbStamps := { dep := 0, arr := 0 }
/-- Measurements of a good part. -/
def meas0 : WaveMeas :=
  { refs := [], ainDev := [], pllLocked := true, pllJitterFs := 0, temps := List.replicate 8 250, ser := List.replicate 32 (0, 40),
    mir := [0, 0], dram0 := 4096, dram1 := 4096, trained := true, keyRamZero := true, ms := 3 }
/-- Readings of a new part. -/
def reading0 : MonReading :=
  { slack := List.replicate 21 100, ro := List.replicate 48 0, eyes := List.replicate 32 (40, 40), mirEyes := [(40, 40), (40, 40)],
    after := [] }

/-- A small Charter at 64 kHz: port 31, station 511 at its position 16, no axis. -/
def tCharter : Charter :=
  { derateWaive := false, test := true, pair := false, charterId := 1, digest := [], keySlot := 0, baseRate := 0, ratesUsed := 1,
    ports := [{ port := 31, medium := 0, returnDue := 4500, issueLead := 4300 }],
    slots := [{ station := 511, port := 31, pos := 16, matchKind := 2, rejoin := 0, policy := 0, io := false, vendor := 0, model := 0,
                serial := 0 }],
    axes := [], chains := [], tasks := [], binds := [], layout := none, pins := [], inits := [], classes := [], windowLen := 4096,
    urgentBeats := 64, pairRec := none,
    ageing := { permit := true, vcoreMax := 850, reservePs := 60, warnDays := 180 }, codes := [], testAuth := some 7 }

/-- A released device in full service under the Charter, in the sample cycle 1024. -/
def tRun : State :=
  let s := State.reset
  { s with
    clk := { s.clk with lock := true }
    tim := { s.tim with now := 40000000, edges := 40000000 }
    cht := { s.cht with active := some tCharter, phase := .running, started := true }
    cyc := { s.cyc with service := 2, k := 1024, tk := 40000000, num := 1023, numValid := true, sampled := true }
    par := { s.par with holds := true }
    bst := { s.bst with inReset := false, released := true, verdict := .pass, linkRun := true } }

/-- The same with position 16 of port 31 changed, its link up. -/
def tPos (f : Position → Position) : State :=
  (tRun.mapPort 31 fun q => { q with linkUp := true }).mapPos 31 16 f

/-- The same with lane 15 changed, which runs code at address 16. -/
def tLane (f : Lane → Lane) : State :=
  tRun.mapLane 15 fun l => f { l with
    state := .running, pc := 16
    job := some { task := 3, flow := 3, axis := none, k := 0, stamp := 0, flags := 0, d := 1, handedAt := 0, phase := .code, next := none,
                  base := none, n15 := 0, placed := [] } }

/-- A task of the Teller. -/
def tTask : Task :=
  { num := 3, prio := 2, flow := 300, rate := 0, phase := 0, all := false, axisTask := false, entry := 1, mask := 1, flags := 1,
    st := .ready, running := false, runs := 0, lastK := none, arrived := none, changed := false, shut := 0 }

/-- A state with that task ready and lane 0 enabled. -/
def tTeller : State :=
  { tRun with teller := { tRun.teller with tasks := [tTask], ready := setAt tRun.teller.ready 2 (· ++ [3]), laneEn := 0xFFFF } }

/-! ## WellFormed refuses -/

theorem test_wf_address : (Instr.registerWrite .svc .w32 0x10000000000 0).wellFormed = false := by
  simp [Instr.wellFormed]
theorem test_wf_port : (Instr.returnDue 32).wellFormed = false ∧ (Instr.returnDue 31).wellFormed = true := by decide
theorem test_wf_position :
    (Instr.timingComplete 0 0).wellFormed = false ∧ (Instr.timingComplete 0 17).wellFormed = false
      ∧ (Instr.timingComplete 0 16).wellFormed = true := by decide
theorem test_wf_lane : (Instr.nop 16 p0).wellFormed = false ∧ (Instr.nop 15 p0).wellFormed = true := by decide
theorem test_wf_format_p :
    (Instr.nop 0 { p0 with acc := 4 }).wellFormed = false ∧ (Instr.nop 0 { p0 with xs := 8 }).wellFormed = false
      ∧ (Instr.nop 0 { p0 with ys := 16 }).wellFormed = false ∧ (Instr.nop 0 { p0 with sh := 64 }).wellFormed = false := by decide
theorem test_wf_format_i :
    (Instr.li 0 { i0 with dst := 128 }).wellFormed = false ∧ (Instr.li 0 { i0 with src := 128 }).wellFormed = false := by decide
theorem test_wf_format_c :
    (Instr.bra 0 { c0 with reg := 128 }).wellFormed = false ∧ (Instr.bra 0 { c0 with cond := 16 }).wellFormed = false
      ∧ (Instr.bra 0 { c0 with imm16 := 65536 }).wellFormed = false
      ∧ (Instr.bra 0 { c0 with target := 32768 }).wellFormed = false := by decide
theorem test_wf_message :
    (Instr.paramResp 0 { msg0 with hdr := 0x01000000 }).wellFormed = false
      ∧ (Instr.paramResp 0 { msg0 with payload := [0] }).wellFormed = false ∧ (Instr.paramResp 0 msg0).wellFormed = true := by decide
theorem test_wf_return_frame :
    (Instr.returnFrame 0 { frame0 with slots := List.replicate 17 slot0 }).wellFormed = false
      ∧ (Instr.returnFrame 0 { frame0 with hdr := [2] }).wellFormed = false
      ∧ (Instr.returnFrame 0 { frame0 with slots := [{ slot0 with hdr := [] }] }).wellFormed = false
      ∧ (Instr.returnFrame 0 { frame0 with slots := List.replicate 16 slot0 }).wellFormed = true := by decide
theorem test_wf_reply :
    (Instr.discoveryReply 0 { reply0 with hdr := [0x104] }).wellFormed = false
      ∧ (Instr.discoveryReply 0 { reply0 with cells := List.replicate 17 cell0 }).wellFormed = false
      ∧ (Instr.discoveryReply 0 { reply0 with cells := [{ cell0 with status := [] }] }).wellFormed = false
      ∧ (Instr.discoveryReply 0 { reply0 with
          cells := [{ cell0 with msg := some { msg0 with hdr := 0x06000000, payload := List.replicate 6 0 } }] }).wellFormed = false := by
  decide
theorem test_wf_receiver :
    (Instr.linkAlign (.port 32)).wellFormed = false ∧ (Instr.linkLoss (.mirror 2)).wellFormed = false := by decide
theorem test_wf_issue_header :
    (Instr.issueFrameReceive 0 { hdr0 with hdr := [1] }).wellFormed = false
      ∧ (Instr.issueFrameReceive 0 { hdr0 with hdr := List.replicate 18 0 }).wellFormed = false
      ∧ (Instr.issueFrameReceive 0 hdr0).wellFormed = true := by decide
theorem test_wf_pins :
    (Instr.stepPulse 16).wellFormed = false ∧ (Instr.feedbackEdge 16 0 0).wellFormed = false
      ∧ (Instr.ssiTransfer 16 true 0 true).wellFormed = false ∧ (Instr.triggerInput 16 true 0).wellFormed = false
      ∧ (Instr.ainConversionDone 8 0).wellFormed = false ∧ (Instr.comparePulseEnd 8).wellFormed = false := by decide
theorem test_wf_compare :
    (Instr.compareArm .svc true 32 .cfg 0).wellFormed = false ∧ (Instr.compareArm .svc false 8 .cfg 0).wellFormed = false
      ∧ (Instr.overrateClear .svc (.port 16)).wellFormed = false := by decide
theorem test_wf_requester : (Instr.requestEligible 24).wellFormed = false ∧ (Instr.promotion 24).wellFormed = false := by decide
theorem test_wf_mirror :
    (Instr.heartbeat 2 0 beat0 beat0 true).wellFormed = false ∧ (Instr.escrowBegin 0 (2 ^ 32)).wellFormed = false
      ∧ (Instr.escrowLine 0 7 (List.replicate 8 0)).wellFormed = false ∧ (Instr.escrowLine 0 8 []).wellFormed = false
      ∧ (Instr.escrowTask 0 8 0).wellFormed = false
      ∧ (Instr.escrowDelay 0 [{ task := 2048, flag := 0, due := 0, period := 0 }]).wellFormed = false
      ∧ (Instr.escrowPort 0 [] []).wellFormed = false := by decide
theorem test_wf_readings :
    (Instr.waveEnd [] { meas0 with temps := [] }).wellFormed = false
      ∧ (Instr.monitorRead { reading0 with slack := [] }).wellFormed = false := by decide

/-! ## The table gives no command bits -/

theorem test_no_word_spells_a_command : decodeTableWord 0 0 = none ∧ decodeTableWord 64 1 = none := by decide
theorem test_fetch_word_leaves_state : State.reset.withFetchWord 64 5 = State.reset := by rfl

/-! ## Values from the chapters and from the standards they name -/

/-- SHA-256 of "abc" (FIPS 180-4). -/
theorem test_sha256_abc :
    bytesNat (sha256 [0x61, 0x62, 0x63]) = 0xba7816bf8f01cfea414140de5dae2223b00361a396177a9cb410ff61f20015ad := by decide +kernel
/-- The CRC of R306 over "123456789" (the check value of CRC-16/IBM-3740). -/
theorem test_crc_check : crc16 [0x31, 0x32, 0x33, 0x34, 0x35, 0x36, 0x37, 0x38, 0x39] = 0x29B1 := by decide +kernel
/-- 2G on P-256 (SEC 2, the doubled base point's x). -/
theorem test_p256_double :
    let q := ecDouble (p256G.1, p256G.2, 1)
    let zi := invMod p256P q.2.2
    q.1 * (zi * zi) % p256P = 0x7cf27b188d034f7e8a52380304b51ac3c08969e277f21b35a60b48fc47669978 := by decide +kernel
/-- The butterfly of 05_lane_datapath: a'r and b'i with pass shift −2, and their redundant signs. -/
theorem test_rnd32_butterfly :
    (rnd32 (2906733773 * 2 ^ 30) (-2) true).1 = 363341722 ∧ (rnd32 (-2722508801 * 2 ^ 30) (-2) true).1 = -340313600
      ∧ (rnd32 (4869992449 * 2 ^ 30) (-2) true).1 = 608749056 := by decide
theorem test_rsc_butterfly : rsc 363341722 = 2 ∧ rsc (-340313600) = 2 ∧ rsc 173529190 = 3 ∧ rsc 608749056 = 1 := by decide
/-- The position error of 05_lane_datapath: A = 1.5 × 2^32 has s = 29, and its mantissa is 0x6000_0000. -/
theorem test_nrnd_position_error : exOf (3 * 2 ^ 31) = 29 ∧ (rnd32 (3 * 2 ^ 31) 29 true).1 = 0x60000000 := by decide
/-- The bit-reversed pass of 05_lane_datapath: from 0x1_0000 by 0x20, 64 bits wide. -/
theorem test_reverse_carry :
    let m : MoveF := { en := true, store := false, wide := true, idx := 0, ofs := 0, mode := 1, reg := 0, rsvd := 0 }
    (moveAddr m 0x10000 0x20).2 = 0x10020 ∧ (moveAddr m 0x10020 0x20).2 = 0x10010 ∧ (moveAddr m 0x10010 0x20).2 = 0x10030
      ∧ (moveAddr m 0x10030 0x20).2 = 0x10008 ∧ (moveAddr m 0x10038 0x20).2 = 0x10000 := by decide
/-- Times of 04_control_cycle on TB4: C = 26,950 ns at 32 kHz with a lead of 4,300 ns. -/
theorem test_clearing_point_offset : ({ tCharter with baseRate := 1 } : Charter).cpOffs = 26950 := by decide
/-- The frame of cycle k of such a port is launched 4,300 ns before its apply instant. -/
theorem test_launch_time : launchTime tCharter 31 31250 = 26950 := by decide
/-- The class and group of S.01.005.003 (00_scope). -/
theorem test_identifier : idClass 0x101403 = 1 ∧ idGroup 0x101403 = 5 ∧ idItem 0x101403 = 3 := by decide

/-! ## Single steps -/

/-- The state a command leaves, where it leaves one. -/
def after (i : Instr) (s : State) : State := match exec i s with
  | .next t => t
  | _ => s

theorem test_ref_lost_enters_holdover : (after .refLost tRun).clk.holdover = true ∧ (after .refLost tRun).clk.lock = false := by
  decide +kernel
set_option maxRecDepth 20000 in
theorem test_clearing_point_counts : (after .clearingPoint tRun).cyc.k = 1025 ∧ (after .clearingPoint tRun).cyc.num = 1024 := by
  decide +kernel
theorem test_mpy_product :
    ((after (.mpy 15 { p0 with acc := 1, xs := 2, ys := 3 })
      (tLane fun l => { l with x := putAt l.x 2 0xFFFFFFFD, y := putAt l.y 3 5 })).lane 15).a.getD 1 0 = BitVec.ofInt 80 (-15) := by
  decide +kernel
theorem test_sha_lost_bit_sets_ovf :
    ((after (.sha 15 { p0 with sh := 1 }) (tLane fun l => { l with a := [2 ^ 78, 0, 0, 0] })).lane 15).lflg = 2 := by decide +kernel
theorem test_idiv_truncates :
    let l := (after (.idiv 15 { i0 with dst := 0x18, src := 0x19, imm := 2 })
      (tLane fun l => { l with n := [0xFFFFFFF9, 0xFFFFFFFF] ++ List.replicate 14 0 })).lane 15
    l.n.getD 0 0 = 0xFFFFFFFD ∧ l.n.getD 1 0 = 0xFFFFFFFF := by decide +kernel
theorem test_shln_source_is_destination :
    ((after (.shln 15 { i0 with dst := 0x18, src := 0x18, imm := 4 })
      (tLane fun l => { l with n := 0xF0000001 :: List.replicate 15 0 })).lane 15).n.getD 0 0 = 0x10 := by decide +kernel
theorem test_adde_clamps :
    let l := (after (.adde 15 { i0 with dst := 0x28, src := 0x28, imm := 100 }) (tLane fun l => { l with e := putAt l.e 0 100 })).lane 15
    l.e.getD 0 0 = 127 := by decide +kernel
theorem test_ninth_call_overflows :
    ((after (.call 15 c0) (tLane fun l => { l with ret := List.replicate 8 { addr := 1, depth := 0 } })).lane 15).fault = 2 := by
  decide +kernel
theorem test_hand_off_takes_ready_task :
    ((after .handOff tTeller).lane 0).job.map (fun j => j.task) = some 3 ∧ (after .handOff tTeller).teller.flows = [300] := by
  decide +kernel
theorem test_software_event_order :
    ((after (.softwareEvent .app0 0x80000002) tRun).teller.raised.map fun e => e.index) = [1, 31] := by decide +kernel
theorem test_ain_half_scale : (after (.ainConversionDone 3 900000) tRun).io.ain.getD 3 0 = 0x8000 := by decide +kernel
theorem test_pair_read_latches :
    let t := after (.pairLoRead .app0 0x40020000) { tRun with tim := { tRun.tim with now := 0x300000005 } }
    t.readData = 5 ∧ (after (.pairLoRead .app0 0x40020004) t).readData = 3 := by decide +kernel
theorem test_idcode : (after (.jtagInstruction .idcode) tRun).readData = 0x0256054B := by decide +kernel
theorem test_therm_holds_between :
    (after (.thermN [1501]) tRun).glb.thermLow = true
      ∧ (after (.thermN [1490]) (after (.thermN [1501]) tRun)).glb.thermLow = true := by decide +kernel

/-! ## Witnesses: states and operands that meet the hypotheses of the statements, clause by clause -/

/-- A unit that is a standby in the same service. -/
def tStandby : State := { tRun with par := { tRun.par with role := .standby, holds := false, gridSet := true, link := true } }
/-- The same state before the sample of its cycle. -/
def tBefore : State := { tRun with cyc := { tRun.cyc with sampled := false } }
/-- An axis, 255, that samples in every base cycle. -/
def tAxisRec : AxisRec :=
  { axis := 255, mode := 0, rate := 0, phase := 0, source := 0, target := 511, primary := 511, loadFb := 0, reaction := 0,
    overrunLimit := 4 }
def tAxisCharter : Charter := { tCharter with axes := [tAxisRec] }
/-- A state under a Charter with that axis. -/
def underAxis (s : State) : State := { s with cht := { s.cht with active := some tAxisCharter } }

theorem test_witness_StepTakesFront : ({ tRun with pending := [.refLost, .vbakLost] } : State).pending = .refLost :: [.vbakLost] := by rfl

theorem test_witness_StepIdleTicks :
    (tRun.pending = [] ∧ (tRun.clk.lock || tRun.clk.holdover) = true ∧ tRun.par.role ≠ .standby ∧ tRun.io.cmpWrites = [])
      ∧ State.reset.pending = [] ∧ (State.reset.clk.lock || State.reset.clk.holdover) = false := by decide +kernel

theorem test_witness_QueueUntouched : ∃ t, exec .vbakRestore tRun = .next t := ⟨_, rfl⟩

theorem test_witness_OtpChangesByStrongroomOnly :
    (∃ t, exec .vbakRestore tRun = .next t) ∧ Instr.vbakRestore ≠ .strongroomAnswer := ⟨⟨_, rfl⟩, by decide⟩

/-- A state with a byte in every memory takes a step. -/
def tMem : State :=
  { tRun with pending := [.vbakRestore], dram := [(0x801000000, 1)], pages := [(0x400, 1)], code := [(0x3FFF, 1)],
              ledger := { tRun.ledger with mem := [(0x100000, 1)] } }

theorem test_witness_MemoryCanonicalKept : tMem.memOk ∧ ∃ t, step tMem = .next t :=
  ⟨by unfold State.memOk; decide +kernel, _, rfl⟩

/-- A unit without a pair Charter keeps its role, whatever its links. -/
theorem roleStands_alone {s : State} {b : Bool} (c : Charter) (h : s.cht.active = some c) (hp : c.pair = false) :
    s.roleStands b := by
  intro x hx hp'
  rw [h] at hx
  cases hx
  simp [hp] at hp'

/-- The sizes, as a computation. -/
def sized (s : State) : Bool :=
  s.lanes.length == 16 && s.axes.length == 256 && s.ports.length == 32 && s.stations.length == 512
    && (s.ports.all fun q => q.pos.length == 16)
    && s.lanes.all fun l => l.x.length == 8 && l.y.length == 16 && l.n.length == 16 && l.e.length == 8 && l.p.length == 8
      && l.ix.length == 8 && l.ox.length == 8 && l.iy.length == 8 && l.oy.length == 8 && l.a.length == 4
      && decide (l.marks.length ≤ 64)

theorem sizesOk_of_sized {s : State} (h : sized s = true) : s.sizesOk := by
  simpa [sized, State.sizesOk, Lane.filesOk, and_assoc] using h

theorem test_witness_SizesKept : tMem.sizesOk ∧ ∃ t, step tMem = .next t := ⟨sizesOk_of_sized (by decide +kernel), _, rfl⟩

/-- Clocks in holdover with REFCLK lost. -/
def tHold : State := { tRun with clk := { tRun.clk with lock := false, holdover := true, refLost := true } }

theorem test_witness_ReferenceAndDerating :
    (tRun.clk.lock || tRun.clk.relocking) = true
      ∧ (let c := { tRun.clk with lock := false, relocking := true }
         (c.lock || c.relocking) = true ∧ c.relocking = true)
      ∧ (tHold.clk.holdover = true ∧ tHold.clk.refLost = true)
      ∧ (let s := { State.reset with clk := { State.reset.clk with pending := some true } }
         s.clk.pending = some true ∧ s.cht.active = none ∧ s.cyc.service ≠ 1) := by decide +kernel

theorem test_witness_DeviceResets :
    (tRun.clk.lock = true ∧ tRun.clk.holdover = false) ∧ ({ Bst.reset with inReset := true } : Bst).inReset = true
      ∧ (State.reset.bst.inReset = false ∧ State.reset.clk.lock = false ∧ State.reset.clk.holdover = false) := by decide +kernel

theorem test_witness_PlantStepAndTick : tRun.passive = false ∧ tStandby.passive = true := by decide +kernel

theorem test_witness_CalendarAndCapture :
    tRun.tim.vbak = true ∧ ({ tRun.tim with calSet := some 5 } : Tim).calSet = some 5 ∧ tRun.tim.calSet = none
      ∧ ({ tRun.tim with capReq := true } : Tim).capReq = true ∧ tRun.tim.capReq = false ∧ bit (2 : Word64) 0 = false := by
  decide +kernel

/-- Station 511 bound at position 16 of port 31, whose slot the return frame of the cycle is to bring. -/
def tSlotted (s : State) : State :=
  (s.mapPos 31 16 fun q => { q with st := .bound, station := some 511 }).mapPort 31 fun q => { q with retSlots := [511] }

/-- A staging bank in a given state, with a source of one word at the start of the permitted DRAM. -/
def tStage (st : StageState) : State :=
  { State.reset with cht := { State.reset.cht with stage := st, src := 0x801000000, srcLen := 1 } }

theorem test_witness_CharterStaging :
    (∀ st ∈ [StageState.empty, .staged, .rejected],
        (tStage st).cht.stage = .empty ∨ (tStage st).cht.stage = .staged ∨ (tStage st).cht.stage = .rejected)
      ∧ (tStage .empty).sourceOk = true
      ∧ ({ tStage .staged with cht := { (tStage .staged).cht with srcLen := 0 } } : State).sourceOk = false
      ∧ (∀ st ∈ [StageState.loading, .checking, .armed],
        ¬((tStage st).cht.stage = .empty ∨ (tStage st).cht.stage = .staged ∨ (tStage st).cht.stage = .rejected))
      ∧ ((tStage .empty).cht.stage ≠ .staged ∧ (tStage .empty).cht.stage ≠ .rejected)
      ∧ (tStage .loading).cht.stage = .loading ∧ (tStage .checking).cht.stage = .checking := by decide +kernel

/-- A swap prepared for cycle `at'` from cycle 1023 on. -/
def tSwap (st : StageState) (at' : Word64) : State :=
  { tRun with cht := { tRun.cht with stage := st, staged := some { tCharter with charterId := 2 }, swapAt := at' } }

/-- A Charter staged beside the active one with a table group, group 1 of class 8, and a code block, at places that ARM writes. -/
def tNew : Charter :=
  { tCharter with charterId := 2, inits := [{ first := 0x800400, values := [5, 6] }], codes := [{ id := 9, cost := 1, code := [1, 2] }] }
def tArmed : State :=
  let s := tSwap .staged 1279
  { (tSlotted s) with cht := { s.cht with staged := some tNew } }

theorem test_witness_ArmAndDisarm_written :
    (tArmed.cht.stage = .staged ∧ tArmed.cht.active = some tCharter ∧ tArmed.cht.staged = some tNew
        ∧ tArmed.armFails tCharter tNew (!tArmed.asksStandby tCharter || bit tArmed.free 0) = none)
      ∧ (tArmed.armCells tCharter tNew = [(0x800400, 5), (0x800401, 6)] ∧ (tArmed.armWritten tCharter tNew).length = 1
        ∧ 0 < tNew.codes.length ∧ 0x800402 ∉ (tArmed.armCells tCharter tNew).map (fun e => e.1))
      ∧ tArmed.memOk ∧ tArmed.sizesOk ∧ ((tArmed.port 31).at 16).station = some 511 ∧ ((tArmed.port 31).at 15).station = none :=
  ⟨by decide +kernel, by decide +kernel, by unfold State.memOk; decide +kernel, sizesOk_of_sized (by decide +kernel),
    by decide +kernel, by decide +kernel⟩

theorem test_witness_ArmAndDisarm :
    (let s := tSwap .staged 1279
     s.cht.stage = .staged ∧ s.cht.active = some tCharter ∧ s.cht.staged = some { tCharter with charterId := 2 }
       ∧ s.armFails tCharter { tCharter with charterId := 2 } (!s.asksStandby tCharter || bit s.free 0) = none)
      ∧ (let s := tSwap .staged 1278
         s.cht.stage = .staged
           ∧ s.armFails tCharter { tCharter with charterId := 2 } (!s.asksStandby tCharter || bit s.free 0) = some (0x21, 0))
      ∧ (tRun.cht.stage ≠ .staged ∧ State.reset.cht.active = none ∧ tRun.cht.staged = none)
      ∧ ((tSwap .armed 1152).cht.stage = .armed ∧ (tSwap .armed 1152).cyc.num + 128 < (tSwap .armed 1152).cht.swapAt.toNat)
      ∧ ((tSwap .armed 1151).cht.stage = .armed ∧ (tSwap .armed 1151).cht.swapAt.toNat ≤ (tSwap .armed 1151).cyc.num + 128) := by
  decide +kernel

/-- A released device with that Charter staged and none active. -/
def tStaged : State := { tRun with cht := { Cht.reset with stage := .staged, staged := some tCharter } }

theorem test_witness_StartMakesActive :
    (tStaged.cht.stage = .staged ∧ tStaged.cht.active = none ∧ tStaged.cht.staged = some tCharter)
      ∧ (tStaged.clk.derated = false ∧ tStaged.bst.released = true ∧ tStaged.par.unit = false ∧ tCharter.pair = false)
      ∧ (tStaged.cyc.service ≠ 1 ∧ ({ tStaged.cyc with service := 1 } : Cyc).service = 1)
      ∧ ({ tStaged.clk with derated := true } : Clk).derated = true ∧ tStaged.cht.stagedSafe = false
      ∧ ({ tStaged.par with unit := true } : Par).unit = true ∧ State.reset.bst.released = false
      ∧ tRun.cht.stage ≠ .staged ∧ tRun.cht.active.isSome = true ∧ tRun.cht.staged = none := by decide +kernel

theorem test_witness_SampleAndReturnEvents :
    (let s := underAxis tBefore
     s.charter = some tAxisCharter ∧ s.cyc.service ≠ 0 ∧ s.cyc.sampled = false ∧ tAxisCharter.samples tAxisRec s.cyc.k = true
       ∧ tAxisRec.axis < s.axes.length ∧ (∀ r ∈ tAxisCharter.axes, r.axis = 254 → tAxisCharter.samples r s.cyc.k = false)
       ∧ (tAxisCharter.axes.map fun r => r.axis).Nodup)
      ∧ (tRun.cyc.service ≠ 0 ∧ tRun.cyc.sampled = true)
      ∧ (let s := tSlotted tRun
         s.charter = some tCharter ∧ (tCharter.port? 31).isSome = true ∧ s.cyc.service ≠ 0 ∧ s.cht.phase ≠ .toT0 ∧ s.cyc.sampled = true
           ∧ 31 < s.ports.length ∧ (s.port 31).returned = false ∧ (s.port 31).judged = false
           ∧ 511 ∈ (s.port 31).retSlots ∧ 510 ∉ (s.port 31).retSlots ∧ 511 < s.stations.length)
      ∧ (let s := underAxis (tSlotted tRun)
         tAxisRec ∈ tAxisCharter.returnAxes 511 s.cyc.k
           ∧ ({ tAxisCharter with axes := [{ tAxisRec with target := 510, loadFb := 0x400001FF }] } : Charter).returnLoads 511 s.cyc.k
             ≠ [])
      ∧ (let s := tRun.mapPort 31 fun q => { q with returned := true, judged := true }
         (s.port 31).returned = true ∧ (s.port 31).judged = true) := by decide +kernel

theorem test_witness_SampleAndReturnEvents_memory :
    (underAxis tBefore).memOk ∧ (underAxis (tSlotted tRun)).memOk :=
  ⟨by unfold State.memOk; decide +kernel, by unfold State.memOk; decide +kernel⟩

theorem test_witness_DeadlineAndClearingPoint :
    (let s := (underAxis tRun).mapAxis 255 fun a => { a with jobDue := true }
     s.charter = some tAxisCharter ∧ s.cyc.service ≠ 0 ∧ s.cyc.sampled = true ∧ s.cyc.frozen = false ∧ s.passive = false
       ∧ tAxisCharter.closes tAxisRec s.cyc.k = true ∧ tAxisRec.axis < s.axes.length
       ∧ (s.axis tAxisRec.axis).jobDue = true ∧ (s.axis tAxisRec.axis).inTime = false)
      ∧ (tStandby.charter = some tCharter ∧ tStandby.cyc.service ≠ 0 ∧ tStandby.cyc.sampled = true ∧ tStandby.cyc.frozen = false
        ∧ tStandby.passive = true)
      ∧ (tRun.charter = some tCharter ∧ tRun.cht.phase ≠ .toT0 ∧ tRun.cyc.service ≠ 0 ∧ tRun.cyc.sampled = true
        ∧ tRun.cyc.service = 2 ∧ tRun.cht.stage ≠ .armed ∧ ({ tRun.cyc with service := 1 } : Cyc).service ≠ 2)
      ∧ ((tSwap .armed 1024).cyc.service = 2 ∧ (tSwap .armed 1024).cht.stage = .armed
        ∧ (tSwap .armed 1024).cht.swapAt.toNat = (tSwap .armed 1024).cyc.k ∧ (tSwap .armed 1024).cht.staged.isSome = true) := by
  decide +kernel

/-- A start of service in a given phase, the Ledger clearing. -/
def tStart (ph : StartPhase) (ready : Bool) (kept : List Nat) : State :=
  { tSlotted tRun with
    cht := { tRun.cht with phase := ph, keptWait := kept }, ledger := { tRun.ledger with clearing := !ready, ready := ready } }

theorem test_witness_StartOfService :
    ((tStart .clearing false []).ledger.clearing = true ∧ (tStart .clearing false []).cht.phase = .clearing)
      ∧ ((tStart .waitTs false []).ledger.clearing = true ∧ (tStart .waitTs false []).cht.phase = .waitTs
        ∧ (tStart .waitTs false []).cht.keptWait = [])
      ∧ ((tStart .waitTs false [511]).cht.phase ≠ .clearing ∧ (tStart .waitTs false [511]).cht.keptWait ≠ [])
      ∧ (let s := tStart .waitTs true [511]
         s.cht.phase = .waitTs ∧ s.ledger.ready = true ∧ s.sizesOk ∧ ((s.port 31).at 16).station = some 511 ∧ 511 ∈ s.cht.keptWait
           ∧ 0 < s.ports.length ∧ (s.bst.holdC.bind fun h => h.port? 0) = none ∧ s.roleStands false)
      ∧ ((tStart .toT0 true []).cht.phase = .toT0 ∧ (tStart .toT0 true []).cht.active = some tCharter
        ∧ ({ tRun.cyc with service := 1 } : Cyc).service = 1) :=
  ⟨by decide +kernel, by decide +kernel, by decide +kernel,
    ⟨by decide +kernel, by decide +kernel, sizesOk_of_sized (by decide +kernel), by decide +kernel, by decide +kernel,
      by decide +kernel, by decide +kernel, roleStands_alone tCharter rfl rfl⟩, by decide +kernel⟩

theorem test_witness_IssueFrameLaunched_role :
    ((tBefore.port 31).rateDue = false ∧ tBefore.roleStands true)
      ∧ (((tStart .toT0 true []).port 31).rateDue = false ∧ (tStart .toT0 true []).roleStands true) :=
  ⟨⟨by decide +kernel, roleStands_alone tCharter rfl rfl⟩, by decide +kernel, roleStands_alone tCharter rfl rfl⟩

theorem test_witness_IssueFrameLaunched :
    (31 < tBefore.ports.length ∧ tBefore.cht.phase ≠ .toT0 ∧ tBefore.charter = some tCharter ∧ (tCharter.port? 31).isSome = true
      ∧ tBefore.cyc.service ≠ 0 ∧ tBefore.cyc.sampled = false ∧ tBefore.cyc.k ≠ 0 ∧ tBefore.par.holds = true
      ∧ (tBefore.port 31).launched = false ∧ (tBefore.port 31).stopped = false ∧ tBefore.ptb.dropOf 31 ≠ 3)
      ∧ (let s := tBefore.mapPort 0 fun q => { q with linkUp := true }
         (s.port 0).linkUp = true ∧ s.cyc.service ≠ 1)
      ∧ (let s := tStart .toT0 true []
         31 < s.ports.length ∧ s.cht.phase = .toT0 ∧ s.cht.active = some tCharter ∧ (tCharter.port? 31).isSome = true
           ∧ s.cyc.frozen = false ∧ s.par.holds = true ∧ (s.port 31).launched = false ∧ (s.port 31).stopped = false
           ∧ s.ptb.dropOf 31 ≠ 3)
      ∧ (tStandby.par.holds = false ∧ ({ tRun.port 31 with launched := true } : Port).launched = true
        ∧ ({ tRun.port 31 with stopped := true } : Port).stopped = true
        ∧ ({ Ptb.reset with dropA := 0x1031F } : Ptb).dropOf 31 = 3) := by decide +kernel

/-- A return frame that fills slot 1 and none: the slot of station 511 is missing. -/
def tFrame : RetFrame := { frame0 with slots := [{ slot0 with fill := true }] }

/-- A good slot of 12 words: LOCKED, and the axis record of Mode 0, numbered words. -/
def tGoodFrame : RetFrame :=
  { frame0 with slots := [{ slot0 with hdr := [0x01FF0C01, 0, 0, 0], body := [0, 1, 2, 3, 4, 5, 6, 7], crcRx := 0x71A6 }] }

theorem test_witness_ReturnFrameJudged :
    (let s := underAxis (tSlotted (tPos id))
     (s.sizesOk ∧ s.memOk ∧ s.roleStands true) ∧ 31 < 32 ∧ (s.port 31).linkUp = true ∧ tFrame.due = true
       ∧ s.charter = some tAxisCharter ∧ s.cht.phase ≠ .toT0 ∧ s.cyc.service ≠ 0 ∧ s.cyc.sampled = true ∧ (s.port 31).judged = false
       ∧ (s.port 31).rateDue = false ∧ (tAxisCharter.axes.map fun r => r.axis).Nodup ∧ (s.port 31).retSlots.Nodup
       ∧ (s.judgeFrame tAxisCharter 31 tFrame.slots).map (fun e => (e.2.2.1, e.2.2.2.2)) = [(511, .missing)]
       ∧ s.judgeFrame tAxisCharter 31 tFrame.slots ≠ []
       ∧ (∀ e ∈ s.judgeFrame tAxisCharter 31 tFrame.slots, e.2.2.2.1.msgs = [] ∧ e.2.2.2.1.babble = false)
       ∧ (s.judgeFrame tAxisCharter 31 tGoodFrame.slots).map (fun e => (e.2.2.1, e.2.2.2.2)) = [(511, .good)]
       ∧ (∀ e ∈ s.judgeFrame tAxisCharter 31 tGoodFrame.slots,
          e.2.2.2.2 = .good ∧ e.2.2.2.1.msgs = [] ∧ e.2.2.2.1.babble = false)
       ∧ tAxisCharter.returnAxes 511 s.cyc.k = [tAxisRec])
      ∧ (let s := (underAxis (tSlotted (tPos id))).mapPort 31 fun q => { q with judged := true }
         (s.port 31).judged = true ∧ (s.port 31).rateDue = false ∧ s.roleStands true)
      ∧ (tRun.port 31).linkUp = false :=
  ⟨⟨⟨sizesOk_of_sized (by decide +kernel), by unfold State.memOk; decide +kernel, roleStands_alone tAxisCharter rfl rfl⟩,
    by decide +kernel⟩, ⟨by decide +kernel, by decide +kernel, roleStands_alone tAxisCharter rfl rfl⟩, by decide +kernel⟩

theorem test_witness_LinkAlignAndLoss :
    (31 < tRun.ports.length ∧ (tRun.port 31).linkUp = false)
      ∧ (tPos id).sizesOk ∧ 31 < 32 ∧ ((tPos id).port 31).linkUp = true :=
  ⟨by decide +kernel, sizesOk_of_sized (by decide +kernel), by decide +kernel⟩

/-- Station 511 at position 16, a request of tag 9 open; DSC_CTRL.RUN as given; an upload ring at the start of permitted DRAM. -/
def tBound (st : PosState) (run : Word) (size : Word) : State :=
  { (tPos fun q => { q with st := st, station := some 511, effective := 1024 }).mapStation 511 fun x => { x with params := [9] } with
    dsc := { Dsc.reset with ctrl := run }
    acq := { Acq.reset with upBase := 0x801000000, upSize := size } }

/-- A PARAM_RESP of tag 9, and a message of ACQ_DATA, of station 511. -/
def tResp : Msg := { hdr := 0x011201FF, payload := [0x09000000], crcRx := 0xB7AC }
def tData : Msg := { hdr := 0x003001FF, payload := [], crcRx := crcWords [0x003001FF] }

theorem test_witness_UpstreamMessages :
    ((tBound .configuring 1 1).sizesOk ∧ 31 < 32 ∧ ((tBound .configuring 1 1).port 31).posOf 511 = some 16
        ∧ (((tBound .configuring 1 1).port 31).at 16).st = .configuring ∧ bit (tBound .configuring 1 1).dsc.ctrl 0 = true
        ∧ 1024 = (((tBound .configuring 1 1).port 31).at 16).effective)
      ∧ ((((tBound .bound 1 1).port 31).at 16).st = .bound ∧ bit (tBound .configuring 0 1).dsc.ctrl 0 = false)
      ∧ (let s := tBound .bound 1 1
         (s.port 31).posOf tResp.station = some 16 ∧ tResp.station < 0x200 ∧ tResp.crcOk = true ∧ tResp.kind = 0x12
           ∧ (s.station tResp.station).params.contains (field (tResp.payload.getD 0 0) 31 24) = true)
      ∧ (tData.crcOk = true ∧ tData.kind = 0x30 ∧ tData.station = 511 ∧ field (tBound .bound 1 0).acq.upSize 20 0 = 0)
      ∧ (let s := tBound .bound 1 1
         field s.acq.upSize 20 0 ≠ 0 ∧ (s.acq.upPlace 1000000) = none ∧ (s.acq.upPlace (tData.payload.length + 2)).isSome = true
           ∧ ({ s with dramMib := 4096 } : State).dramOk s.acq.upBase.toNat (field s.acq.upSize 20 0 * 4096) = true
           ∧ ({ s with dramMib := 0 } : State).dramOk s.acq.upBase.toNat (field s.acq.upSize 20 0 * 4096) = false
           ∧ (let a := { s.acq with upHead := 1023, upTail := 5 }
              a.upPlace (tData.payload.length + 2) = some (0, 2) ∧ a.upHead.toNat ≠ 0
                ∧ a.upHead.toNat < field a.upSize 20 0 * 1024))
      ∧ ((tRun.port 31).posOf tResp.station = none ∧ ({ tResp with crcRx := 0 } : Msg).crcOk = false
        ∧ 5 < (tRun.port 31).tol.length) :=
  ⟨⟨sizesOk_of_sized (by decide +kernel), by decide +kernel⟩, by decide +kernel, by decide +kernel, by decide +kernel,
    by decide +kernel, by decide +kernel⟩

/-- The issue frame of cycle 1023 has left port 31, with so many characters. -/
def tLaunched (n : Nat) (run : Word) : State :=
  { ({ tRun with cyc := { tRun.cyc with k := 1025 } }.mapPort 31 fun q =>
    { q with linkUp := true, launched := true, pendingDisc := some 6,
             frame := some { hdr := [], rlen := [], grant := [], slots := [], timed := [], msgs := [], wire := [], len := n } }) with
    dsc := { Dsc.reset with ctrl := run } }

theorem test_witness_DiscoveryExchange :
    (∀ n ∈ [40, 100000], (tLaunched n 1).charter = some tCharter ∧ ((tLaunched n 1).port 31).frame.isSome = true
        ∧ ((tLaunched n 1).port 31).launched = true ∧ ((tLaunched n 1).port 31).discDone = false ∧ (tLaunched n 1).cht.phase ≠ .toT0
        ∧ (tLaunched n 1).bst.linkRun = true ∧ (tLaunched n 1).discDue 31 ((tLaunched n 1).cyc.k - 1) = true)
      ∧ (tLaunched 40 1).sizesOk
      ∧ (((tLaunched 40 1).port 31).pendingDisc = some 6 ∧ (tLaunched 40 1).ptb.delayOf 31 = 0 ∧ reply0.hdrOk = true ∧ 6 = reply0.seq
        ∧ bit (tLaunched 40 1).dsc.ctrl 0 = true ∧ bit (tLaunched 40 0).dsc.ctrl 0 = false ∧ reply0.symErrs = 0)
      ∧ (let r := { reply0 with hdr := [0x104, 0, 0, 0], hdrCrc := 0x4424 }
         r.hdrOk = true ∧ 6 ≠ r.seq ∧ r.symErrs = 0)
      ∧ ({ reply0 with hdrCrc := 0 } : DiscReply).hdrOk = false :=
  ⟨by decide +kernel, sizesOk_of_sized (by decide +kernel), by decide +kernel, by decide +kernel, by decide +kernel⟩

/-- Position 16 of port 31 as an enrolment leaves it. -/
def tEnrol (st : PosState) (exchanges : Nat) (assign : Option Nat) (acked : Bool) (attempts : Nat) (run : Word) : State :=
  { tPos (fun q => { q with st := st, exchanges := exchanges, assignAt := assign, acked := acked, attempts := attempts,
                            station := some 511, effective := 1024 }) with
    dsc := { Dsc.reset with ctrl := run } }

theorem test_witness_EnrolmentSteps :
    (let s := tEnrol .timing 256 none false 0 1
     s.sizesOk ∧ ((s.port 31).at 16).st = .timing ∧ 256 ≤ ((s.port 31).at 16).exchanges ∧ ((s.port 31).at 16).assignAt = none)
      ∧ (let s := { tEnrol .timing 256 (some 0) false 0 1 with cyc := { tRun.cyc with k := 1025 } }
         ((s.port 31).at 16).st = .timing ∧ ((s.port 31).at 16).assignAt = some 0 ∧ 0 + 1024 < s.cyc.k)
      ∧ (let s := tEnrol .configuring 256 none true 1 1
         ((s.port 31).at 16).st = .configuring ∧ ((s.port 31).at 16).station = some 511 ∧ 511 < 512 ∧ s.charter = some tCharter
           ∧ ((s.port 31).at 16).effective ≤ s.cyc.k ∧ bit s.dsc.ctrl 0 = true ∧ ((s.port 31).at 16).acked = true)
      ∧ (let s := tEnrol .configuring 256 none false 3 1
         ((s.port 31).at 16).effective ≤ s.cyc.k ∧ ((s.port 31).at 16).acked = false ∧ 3 ≤ ((s.port 31).at 16).attempts)
      ∧ bit (tEnrol .configuring 256 none false 3 0).dsc.ctrl 0 = false :=
  ⟨⟨sizesOk_of_sized (by decide +kernel), by decide +kernel⟩, by decide +kernel, by decide +kernel, by decide +kernel,
    by decide +kernel⟩

/-- Station 511 bound at position 16 with a number of missing slots. -/
def tMissing (n : Nat) : State := (tSlotted tRun).mapStation 511 fun x => { x with missing := n }

/-- Babble of port 31 goes on 64 cycles after position 16 was isolated. -/
def tBabble : State := tRun.mapPort 31 fun q => { q with babble := true, isolatePos := 16, isolateK := 960 }

theorem test_witness_AbsenceAndIsolation :
    ((tMissing 3).sizesOk ∧ (((tMissing 3).port 31).at 16).st = .bound ∧ (((tMissing 3).port 31).at 16).station = some 511
        ∧ 3 ≤ ((tMissing 3).station 511).missing)
      ∧ ((((tMissing 2).port 31).at 16).station = some 511 ∧ ((tMissing 2).station 511).missing < 3)
      ∧ (tRun.cyc.service ≠ 0 ∧ tRun.cyc.k % 1024 = 0)
      ∧ tBabble.sizesOk ∧ (tBabble.port 31).babble = true ∧ 1 < (tBabble.port 31).isolatePos ∧ (tBabble.port 31).isolatePos ≤ 16
        ∧ (tBabble.port 31).isolateK + 64 ≤ tBabble.cyc.k :=
  ⟨⟨sizesOk_of_sized (by decide +kernel), by decide +kernel⟩, by decide +kernel, by decide +kernel,
    sizesOk_of_sized (by decide +kernel), by decide +kernel⟩

/-- DSC_SEL names position 16 of port 31. -/
def tSel (f : Position → Position) (iso : Nat) : State :=
  { (tPos f).mapPort 31 fun q => { q with isolatePos := iso } with dsc := { Dsc.reset with sel := 0x101F } }

theorem test_witness_DiscoveryCommands :
    ((tSel (fun q => { q with st := .unbound }) 16).sizesOk ∧ (tSel (fun q => { q with st := .unbound }) 16).dscSel = (31, 16)
        ∧ (((tSel (fun q => { q with st := .unbound }) 16).port 31).at 16).st = .unbound
        ∧ ((tSel (fun q => { q with st := .unbound }) 16).port 31).isolatePos ≠ 0)
      ∧ (let s := tSel (fun q => { q with st := .bound, station := some 511 }) 0
         s.dscSel = (31, 16) ∧ ((s.port 31).at 16).st = .bound ∧ ((s.port 31).at 16).station = some 511)
      ∧ (let s := tSel (fun q => { q with st := .isolated }) 16
         ((s.port 31).at 16).st = .isolated)
      ∧ State.reset.cyc.service = 0 ∧ tRun.cyc.service ≠ 0 :=
  ⟨⟨sizesOk_of_sized (by decide +kernel), by decide +kernel⟩, by decide +kernel, by decide +kernel, by decide +kernel⟩

/-- A lane at code has its register files. -/
def coded (s : State) : Bool :=
  let l := s.lane 15
  decide (15 < s.lanes.length) && l.issues && decide (l.pc < 0x4000) && l.x.length == 8 && l.y.length == 16 && l.n.length == 16
    && l.e.length == 8 && l.p.length == 8 && l.ix.length == 8 && l.ox.length == 8 && l.iy.length == 8 && l.oy.length == 8
    && l.a.length == 4 && decide (l.marks.length ≤ 64)

theorem atCode_of_coded {s : State} (h : coded s = true) : s.atCode 15 := by
  simpa [coded, State.atCode, Lane.filesOk, and_assoc] using h

/-- No moves: the lane as it is. -/
theorem movesTo_none (s : State) (f : PFields) (dst : List Nat) (hc : coded s = true) (hf : f.ok = true) (hx : f.mx = 0)
    (hy : f.my = 0) (hd : hasDup dst = false) : s.movesTo 15 f dst (s.lane 15) := by
  refine ⟨atCode_of_coded hc, hf, by rw [hx]; rfl, by rw [hy]; rfl, ?_, s.lane 15, ?_, ?_⟩
  · rw [hx, hy]; simpa [moveOf, MoveF.loads, bit] using hd
  · rw [hx]; rfl
  · rw [hy]; rfl

theorem test_witness_LaneMoves :
    (∃ b, (tLane id).movesTo 15 p0 [] b)
      ∧ ((tLane id).atCode 15 ∧
        ∀ m ∈ [0, 1, 2, 3], let f := { p0 with mx := BitVec.ofNat 20 (0x80000 + m * 512) }
          f.ok = true ∧ (moveOf f.mx).en = true ∧ (moveOf f.mx).store = false ∧ (moveOf f.mx).wide = false ∧ (moveOf f.mx).rsvd = 0
            ∧ (moveOf f.mx).mode = m ∧ bit f.my 19 = false ∧ field f.my 3 0 = 0)
      ∧ (let f := { p0 with my := 0xC0400 }
         let s := tLane fun l => { l with iy := putAt l.iy 0 0x1FFC, marks := [127] }
         s.atCode 15 ∧ f.ok = true ∧ (moveOf f.my).en = true ∧ (moveOf f.my).store = true ∧ (moveOf f.my).wide = false
           ∧ (moveOf f.my).rsvd = 0 ∧ (moveOf f.my).mode = 2 ∧ bit f.mx 19 = false ∧ field f.mx 3 0 = 0
           ∧ (((s.lane 15).iy.getD (moveOf f.my).idx 0).toNat) / 4 * 4 = 0x1FFC ∧ writable 0x1FFC = true
           ∧ lineOf 0x1FFC = some 127 ∧ 127 ∈ (s.lane 15).marks ∧ memWf (s.lane 15).ram = true) :=
  ⟨⟨_, movesTo_none _ _ _ (by decide +kernel) rfl rfl rfl rfl⟩, ⟨atCode_of_coded (by decide +kernel), by decide +kernel⟩,
    atCode_of_coded (by decide +kernel), by decide +kernel⟩

theorem test_witness_LaneProducts :
    (∃ b, (tLane id).movesTo 15 { p0 with ys := 3 } [] b ∧ ({ p0 with ys := 3 } : PFields).ys < 4)
      ∧ (∃ b, (tLane id).movesTo 15 { p0 with xs := 7 } [] b) ∧ p0.sh = 0 ∧ ({ p0 with xs := 3 } : PFields).xs < 4
      ∧ ({ p0 with xs := 7 } : PFields).xs = 7 ∧ p0.xs ≠ 7 :=
  ⟨⟨_, movesTo_none _ _ _ (by decide +kernel) rfl rfl rfl rfl, by decide⟩, ⟨_, movesTo_none _ _ _ (by decide +kernel) rfl rfl rfl rfl⟩,
    by decide⟩

theorem test_witness_LaneShiftsAndExponents :
    (∃ b, (tLane id).movesTo 15 p0 [] b)
      ∧ (∀ v ∈ [(-80 : Int), 79], let s := tLane fun l => { l with e := putAt l.e 0 (BitVec.ofInt 32 v) }
          (-80 ≤ (s.lane 15).get (.e 0) ∧ (s.lane 15).get (.e 0) ≤ 79))
      ∧ (let s := tLane fun l => { l with e := putAt l.e 0 80 }
         (s.lane 15).get (.e 0) < -80 ∨ 79 < (s.lane 15).get (.e 0))
      ∧ ∃ b, (tLane id).movesTo 15 { p0 with xs := 7 } [4 * 7 + 0 / 4] b :=
  ⟨⟨_, movesTo_none _ _ _ (by decide +kernel) rfl rfl rfl rfl⟩, by decide +kernel, by decide +kernel,
    ⟨_, movesTo_none _ _ _ (by decide +kernel) rfl rfl rfl rfl⟩⟩

theorem test_witness_LaneRounding :
    ∃ b, (tLane id).movesTo 15 { p0 with xs := 1, ys := 1 } [4 * 1 + 1 / 4] b :=
  ⟨_, movesTo_none _ _ _ (by decide +kernel) rfl rfl rfl rfl⟩

theorem test_witness_RoundingOfRnd32 :
    rnd32 (3 : BitVec 80).toInt 30 true = (2, LFlags.none) ∧ rnd32 (5 : BitVec 80).toInt 30 true = (2, LFlags.none)
    ∧ rnd32 (2147483648 : BitVec 80).toInt 31 true = (2147483647, { LFlags.none with sat := true })
    ∧ rnd32 (-2147483648 : BitVec 80).toInt 31 true = (-2147483647, { LFlags.none with sat := true })
    ∧ rnd32 (-2147483648 : BitVec 80).toInt 31 false = (-2147483648, LFlags.none)
    ∧ rnd32 (2147483648 : BitVec 80).toInt 31 false = (-2147483648, { LFlags.none with ovf := true })
    ∧ (BitVec.ofInt 32 2147483648).toInt = -2147483648 := by decide

theorem test_witness_LaneIntegers :
    (let f := { i0 with dst := 0x18 + 15, src := 0x58 + 3, rr := true, imm := 0x18 }
     (tLane id).atCode 15 ∧ f.rsvd = 0 ∧ (f.rr = true → f.imm.toNat < 128) ∧ regOf f.dst = some (.n 15) ∧ regOf f.src = some (.a 3)
       ∧ f.imm.toNat % 4 < 3 ∧ operand2 f ((tLane id).lane 15) = .ok 0)
      ∧ (regOf 0x18 = some (.n 0) ∧ ∀ i, Reg.n 0 ≠ .a i) ∧ ({ i0 with imm := 3 } : IFields).imm.toNat % 4 = 3
      ∧ (let s := tLane fun l => { l with n := putAt l.n 14 100 }
         let f := { i0 with dst := 0x18 + 14, src := 0x18 + 15, imm := 7 }
         s.atCode 15 ∧ f.rsvd = 0 ∧ 14 < 15 ∧ operand2 f (s.lane 15) = .ok 7 ∧ signed 32 (lowBits 32 7) ≠ 0
           ∧ signed 64 (lowBits 32 ((s.lane 15).get (.n 14)) + lowBits 32 ((s.lane 15).get (.n 15)) * 2 ^ 32) = 100)
      ∧ (operand2 i0 ((tLane id).lane 15) = .ok 0 ∧ signed 32 (lowBits 32 0) = 0)
      ∧ (let s := tLane fun l => { l with n := putAt l.n 15 1 }
         operand2 { i0 with imm := 1 } (s.lane 15) = .ok 1
           ∧ 2147483647 < (signed 64 (lowBits 32 ((s.lane 15).get (.n 14))
               + lowBits 32 ((s.lane 15).get (.n 15)) * 2 ^ 32)).tdiv (signed 32 (lowBits 32 1))) := by
  refine ⟨⟨atCode_of_coded (by decide +kernel), by decide, by decide, by decide, by decide, by decide, by rfl⟩,
    ⟨by decide, by intro i; simp⟩, by decide, ⟨atCode_of_coded (by decide +kernel), by decide, by decide, by rfl, by decide +kernel,
    by decide +kernel⟩, ⟨by rfl, by decide⟩, by rfl, by decide +kernel⟩

theorem test_witness_LanePositions :
    (let f := { i0 with dst := 0x30 + 7, src := 0x30 + 7 }
     (tLane id).atCode 15 ∧ f.rsvd = 0 ∧ f.rr = false ∧ 7 < 8 ∧ f.dst = 0x37 ∧ f.src = 0x37)
      ∧ (let f := { i0 with dst := 0x37, src := 0x18 + 15, rr := true, imm := BitVec.ofNat 32 (0x18 + 15) }
         f.rsvd = 0 ∧ f.imm.toNat < 128)
      ∧ (let f := { i0 with dst := 0x37, src := 0x18 + 15, rr := true, imm := BitVec.ofNat 32 (0x28 + 7) }
         f.rsvd = 0 ∧ f.imm.toNat < 128)
      ∧ (let f := { i0 with dst := 0x58 + 3, src := 0x37, rr := true, imm := BitVec.ofNat 32 (0x30 + 7) }
         f.rsvd = 0 ∧ f.imm.toNat < 128)
      ∧ (let s := tLane fun l => { l with ix := putAt l.ix 7 0x1FFF4 }
         s.atCode 15 ∧ ∃ m, (s.lane 15).storeWords 0x1FFF4 [0, 0, 0] = .ok m)
      ∧ (-1 : Int) ≤ -1 :=
  ⟨⟨atCode_of_coded (by decide +kernel), by decide⟩, by decide, by decide, by decide, ⟨atCode_of_coded (by decide +kernel), _, rfl⟩,
    by decide⟩

theorem test_witness_LaneLedgerAccess :
    (let s := tLane fun l => { l with n := List.replicate 16 0x1FFFFFF, ix := putAt l.ix 7 0x10000 }
     s.atCode 15 ∧ i0.rsvd = 0 ∧ ({ i0 with dst := 0x18 + 14, src := 0x18 + 15 } : IFields).dst = 0x18 + 14 ∧ i0.rr = false
       ∧ ((s.lane 15).n.getD 15 0).toNat < 2 ^ 25
       ∧ 1 ≤ ({ i0 with imm := 1 } : IFields).imm.toNat ∧ ({ i0 with imm := 32 } : IFields).imm.toNat ≤ 32
       ∧ ((s.lane 15).n.getD 15 0).toNat + ({ i0 with imm := 1 } : IFields).imm.toNat ≤ 2 ^ 25
       ∧ ({ i0 with dst := 0x38 + 7 } : IFields).dst = 0x38 + 7
       ∧ 0x10000 ≤ ((s.lane 15).ix.getD 7 0).toNat ∧ ((s.lane 15).ix.getD 7 0).toNat < 0x1ff00)
      ∧ (let s := tLane fun l => { l with post := List.replicate 7 { id := 1, value := 0, status := 0, stamp := 0 } }
         s.atCode 15 ∧ (s.lane 15).post.length < 8 ∧ ((s.lane 15).n.getD 15 0).toNat < 2 ^ 25)
      ∧ (let s := tLane fun l => { l with stall := some (.single 5 14), got := some [7] }
         15 < s.lanes.length ∧ (s.lane 15).stall = some (.single 5 14) ∧ (s.lane 15).got = some [7])
      ∧ (let s := tLane fun l => { l with stall := some (.block 5 1 7), got := some [7], ix := putAt l.ix 7 0x1FFF0 }
         ((s.lane 15).stall = some (.block 5 1 7) ∧ (s.lane 15).got = some [7]) ∧ ∃ m, (s.lane 15).storeWords
           (((s.lane 15).ix.getD 7 0).toNat / 8 * 8)
           (([7] : List Word64).flatMap fun e => [e.extractLsb' 0 32, e.extractLsb' 32 32]) = .ok m) :=
  ⟨⟨atCode_of_coded (by decide +kernel), by decide +kernel⟩, ⟨atCode_of_coded (by decide +kernel), by decide +kernel⟩,
    by decide +kernel, by decide +kernel, _, rfl⟩

theorem test_witness_LaneControlFlow :
    ((tLane id).atCode 15 ∧ c0.ok = true ∧ c0.rsvd = 0 ∧ c0.cond = 0 ∧ inRom ({ c0 with target := 0x3FFF } : CFields).target = false)
      ∧ (∀ e ∈ [(1, (0 : Word)), (2, 1), (3, 0x80000000), (4, 0x7FFFFFFF)],
          let s := tLane fun l => { l with n := putAt l.n 15 e.2 }
          let v := (s.lane 15).n.getD 15 0
          ({ c0 with cond := e.1, reg := 0x27 } : CFields).reg = 0x18 + 15 ∧ coded s = true ∧
            ((e.1 = 1 ∧ v = 0) ∨ (e.1 = 2 ∧ v ≠ 0) ∨ (e.1 = 3 ∧ v.toInt < 0) ∨ (e.1 = 4 ∧ 0 ≤ v.toInt)))
      ∧ bit ((tLane fun l => { l with lflg := 1 }).lane 15).lflg 0 = true
      ∧ (bit ((tLane id).lane 15).lflg 0 = false ∧ ({ c0 with cond := 5 } : CFields).cond ≤ 5)
      ∧ (let s := tLane fun l => { l with ret := List.replicate 7 { addr := 0x3FFF, depth := 0 }
                                          job := l.job.map fun j => { j with placed := [(0x3FFF, 9)] } }
         s.atCode 15 ∧ (s.lane 15).ret.length < 8 ∧ ((s.blockTable 15).find? fun e => e.2 == 9) = some (0x3FFF, 9)
           ∧ (s.lane 15).rep.length = 0 ∧ 1 ≤ 0x3FFF ∧ 0x3FFF < 0x4000)
      ∧ (let s := tLane fun l => { l with ret := [{ addr := 0x4000, depth := 0 }] }
         (s.lane 15).ret = [{ addr := 0x4000, depth := 0 }] ∧ (s.lane 15).rep.length = 0)
      ∧ ((tLane id).lane 15).ret = []
      ∧ (let s := tLane fun l => { l with rep := List.replicate 3 { first := 2, last := 0x3FFE, left := 1 }, n := putAt l.n 15 1 }
         s.atCode 15 ∧ ({ c0 with reg := 0x7F, imm16 := 65535 } : CFields).reg = 0x7F ∧ ({ c0 with reg := 0x27 } : CFields).reg = 0x18 + 15
           ∧ ((s.lane 15).n.getD 15 0).toNat ≠ 0 ∧ (s.lane 15).pc < 0x3FFF ∧ (s.lane 15).rep.length < 4)
      ∧ ({ c0 with reg := 0x7F } : CFields).imm16 = 0 :=
  ⟨⟨atCode_of_coded (by decide +kernel), by decide⟩, by decide +kernel, by decide +kernel, by decide +kernel,
    ⟨atCode_of_coded (by decide +kernel), by decide +kernel⟩, by decide +kernel, by decide +kernel,
    ⟨atCode_of_coded (by decide +kernel), by decide +kernel⟩, by decide⟩

theorem test_witness_LaneFaults :
    (15 < (tLane id).lanes.length ∧ ((tLane id).lane 15).issues = true ∧ ((tLane id).lane 15).pc < 0x4000
        ∧ ({ i0 with rsvd := 0x100 } : IFields).rsvd ≠ 0 ∧ ({ c0 with rsvd := 1 } : CFields).rsvd ≠ 0
        ∧ field ({ p0 with mx := 8 } : PFields).mx 3 0 ≠ 0 ∧ field ({ p0 with my := 1 } : PFields).my 3 0 ≠ 0
        ∧ ({ p0 with sh := 63 } : PFields).sh ≠ 0)
      ∧ (i0.imm = 0 ∧ 32 < ({ i0 with imm := 33 } : IFields).imm.toNat ∧ ({ i0 with rr := true } : IFields).rr = true
        ∧ ({ i0 with dst := 0x3F } : IFields).dst = 0x38 + 7 ∧ ({ i0 with src := 0x27 } : IFields).src = 0x18 + 15)
      ∧ (let s := tLane fun l => { l with n := putAt l.n 15 0x2000000 }
         (s.lane 15).issues = true ∧ 2 ^ 25 ≤ ((s.lane 15).n.getD 15 0).toNat)
      ∧ (let s := tLane fun l => { l with ret := List.replicate 8 { addr := 1, depth := 1 } }
         8 ≤ (s.lane 15).ret.length ∧ c0.target < 0x4000 ∧ (s.lane 15).rep.length ≠ 1)
      ∧ (let s := tLane fun l => { l with rep := List.replicate 4 { first := 2, last := 30, left := 1 } }
         let f := { c0 with reg := 0x7F, imm16 := 1, target := 17 }
         f.imm16 ≠ 0 ∧ (s.lane 15).pc < f.target ∧ 4 ≤ (s.lane 15).rep.length)
      ∧ (0x4000 ≤ ({ c0 with target := 0x43FF } : CFields).target ∧ ({ c0 with target := 0x43FF } : CFields).target < 0x4400)
      ∧ ∀ pc ∈ [0x4000, 0x43FF], ((tLane fun l => { l with pc := pc }).lane 15).issues = true := by decide +kernel

/-- Lane 15 with a run handed to it. -/
def tHanded (a : Option Nat) : State :=
  { tLane (fun l => { l with job := l.job.map fun j => { j with phase := .handed, axis := a, placed := [(40, 1)] } }) with
    teller := tTeller.teller }

theorem test_witness_TakeEntersBlock :
    (15 < (tHanded none).lanes.length ∧ ((tHanded none).lane 15).filesOk ∧ ((tHanded none).lane 15).job.map (fun j => j.phase) = some .handed
        ∧ ((tHanded none).lane 15).job.map (fun j => j.axis) = some none ∧ (tHanded none).teller.task? 3 = some tTask
        ∧ (((tHanded none).lane 15).job.bind fun j => j.placed.find? fun e => e.2 == tTask.entry) = some (40, tTask.entry))
      ∧ ((tHanded (some 255)).lane 15).job.map (fun j => j.axis) = some (some 255) :=
  ⟨⟨by decide +kernel, by unfold Lane.filesOk; decide +kernel, by decide +kernel⟩, by decide +kernel⟩

/-- The job of axis 255 handed to lane 15, under back-pressure of that lane or not. -/
def tJob (held : Bool) : State :=
  let s := underAxis (tHanded (some 255))
  if held then { s with ptb := { s.ptb with bp := 0x10000, bpA := 0x0000640F, bpActs := true } } else s

theorem test_witness_TakeEntersBlock_job :
    (((tJob true).lane 15).job.map (fun j => (j.phase, j.axis)) = some (.handed, some 255) ∧ (tJob true).ptb.holds 15 = true
        ∧ (tJob true).reduced = false)
      ∧ ((tJob false).charter = some tAxisCharter ∧ tAxisCharter.axis? 255 = some tAxisRec ∧ tAxisRec.source < 4
        ∧ memWf ((tJob false).lane 15).ram = true ∧ (tJob false).ptb.holds 15 = false)
      ∧ (((after (.take 15) (tJob false)).lane 15).job.map fun j => (j.phase, j.next.isSome)) = some (.finished, true) := by
  decide +kernel

/-- Lane 15 with a finished run of the present cycle, of axis 255 or of none, line 127 marked. -/
def tFinished (st : LaneState) (a : Option Nat) : State :=
  { tLane (fun l => { l with
      state := st, marks := [127]
      job := l.job.map fun j => { j with
        phase := .finished, axis := a, k := 1024, next := some AxisRun.reset, base := some AxisRun.reset } }) with
    teller := { tTeller.teller with tasks := [{ tTask with st := .service, running := true }] } }

theorem test_witness_DoneCommitsAndEnds :
    (∀ st ∈ [LaneState.running, .holding], ∀ a ∈ [none, some 255],
        15 < (tFinished st a).lanes.length ∧ ((tFinished st a).lane 15).job.map (fun j => (j.phase, j.axis)) = some (.finished, a)
          ∧ ((tFinished st a).lane 15).state = st
          ∧ (((tFinished st a).lane 15).job.map fun j => (tFinished st a).doneLate j) = some false)
      ∧ ((tFinished .running (some 255)).cht.outgoing = none ∧ memWf (tFinished .running (some 255)).pages = true
        ∧ (∀ m ∈ ((tFinished .running (some 255)).lane 15).marks, m < 128) ∧ (tFinished .running (some 255)).axes.length = 256
        ∧ ((tFinished .running (some 255)).lane 15).job.all (fun j => j.next.isSome && j.base.isSome) = true)
      ∧ (((tFinished .committing none).lane 15).state = .committing ∧ ((tFinished .committing none).lane 15).job.isSome = true
        ∧ (tFinished .committing none).teller.task? 3 = some { tTask with st := .service, running := true } ∧ tTask.changed = false) := by
  decide +kernel

theorem test_witness_HandOffByPriority :
    tTeller.passive = false ∧ tTeller.chosen = some tTask ∧ tTeller.teller.choose tTeller.taskLate = some tTask ∧ tTeller.waitingLane = some 0 ∧ field tTeller.ptb.jitterA 11 0 = 0
      ∧ 0 < tTeller.lanes.length := by decide +kernel

/-- The same with software events bound to a flag of the task, one raised, and an entry of a delay list due. -/
def tEvents : State :=
  { tTeller with teller := { tTeller.teller with
      binds := [{ kind := 9, index := 4, task := 3, bit := 31 }], raised := [{ kind := 9, index := 4, k := 0, gen := 0 }],
      dueQ := [{ task := 3, flag := 0, due := 1, period := 0, timer := false }] } }

theorem test_witness_FlagsAndEvents :
    (tTeller.teller.task? 3 = some tTask ∧ bit tTask.flags 0 = true ∧ bit tTask.flags 31 = false)
      ∧ (tTask.running = false ∧ tTask.all = false ∧ bit tTask.mask 0 = true ∧ ({ tTask with st := .waiting } : Task).st = .waiting)
      ∧ (let k := { tTask with st := .waiting, flags := 0 }
         ({ tTeller.teller with tasks := [k] } : Teller).task? 3 = some k ∧ bit k.flags 0 = false ∧ k.mask = 1)
      ∧ (tEvents.passive = false ∧ tEvents.teller.raised = { kind := 9, index := 4, k := 0, gen := 0 } :: []
        ∧ tEvents.teller.gen = 0 ∧ tEvents.teller.binds = [{ kind := 9, index := 4, task := 3, bit := 31 }]
        ∧ (tEvents.teller.task? 3).isSome = true)
      ∧ tEvents.teller.dueQ = { task := 3, flag := 0, due := 1, period := 0, timer := false } :: [] := by decide +kernel

/-- TLR_TASKSEL and TLR_DLY_TASK name task 3; delay list 7 holds n entries. -/
def tSelected (k : Task) (n : Nat) : State :=
  { tRun with teller := { tRun.teller with
      tasks := [k], taskSel := 3, dlyTask := 0x07000003
      lists := putAt tRun.teller.lists 7 (List.replicate n { task := 3, flag := 0, due := 5, period := 0, timer := false }) } }

theorem test_witness_TasksAndDelays :
    (field (tSelected tTask 0).teller.taskSel 10 0 = 3 ∧ (tSelected tTask 0).teller.task? 3 = some tTask
        ∧ (tSelected tTask 0).passive = false ∧ tTask.st ≠ .suspended)
      ∧ (let k := { tTask with st := .suspended }
         (tSelected k 0).teller.task? 3 = some k ∧ k.st = .suspended)
      ∧ (tRun.teller.task? (field tRun.teller.taskSel 10 0) = none ∧ tRun.passive = false ∧ tStandby.passive = true)
      ∧ (∀ n ∈ [255, 256], ((tSelected tTask n).teller.task? (field (tSelected tTask n).teller.dlyTask 10 0)).isSome = true
          ∧ field (tSelected tTask n).teller.dlyTask 26 24 = 7 ∧ 7 < (tSelected tTask n).teller.lists.length
          ∧ ((tSelected tTask n).teller.lists.getD 7 []).length = n)
      ∧ ((tSelected tTask 2).teller.lists.getD 7 []).Pairwise (fun x y => x.due ≤ y.due)
      ∧ tRun.teller.task? (field tRun.teller.dlyTask 10 0) = none
      ∧ (let k := { tTask with flags := 0 }
         tTask.st = .ready ∧ k.satisfied = false ∧ tTask.satisfied = true)
      ∧ (let s := { tRun with teller := { tRun.teller with
             lists := [[{ task := 3, flag := 0, due := 5, period := 7, timer := false }
                        , { task := 3, flag := 0, due := 40001, period := 0, timer := false }]] } }
         s.passive = false ∧ (s.teller.lists.getD 0 []).map (fun e => decide (e.due ≤ s.time / 1000)) = [true, false]
           ∧ (s.teller.lists.getD 0 []).Pairwise fun x y => x.due ≤ y.due) := by decide +kernel

/-- The fabric carries a transfer of one beat, granted in cycle 0; the Ledger is ready. -/
def tOwner (x : Xfer) (req : Nat) : State :=
  { tRun with
    ledger := { tRun.ledger with ready := true }
    arb := { tRun.arb with owner := some { r := { Req.asked req x 1 with eligible := true, sampledAt := some 0 }, granted := 0, turn := true } } }

theorem test_witness_LedgerWindow :
    ((tOwner (.lanePost 15) 15).ledger.ready = true ∧ tRun.ledger.ready = false ∧ 0x1FFFFFF < 2 ^ 25)
      ∧ (let x := Xfer.windowWrite .app0 .w64 0x100001 false 9
         (tOwner x 16).arb.owner.map (fun o => o.r.xfer) = some x
           ∧ (tOwner x 16).arb.owner.all (fun o => o.lastBeat ≤ (tOwner x 16).fclk) = true
           ∧ memWf (tOwner x 16).ledger.mem = true ∧ idReserved 0x100001 = false ∧ idClass 0x100001 ≠ 3
           ∧ (tOwner x 16).par.role ≠ .standby)
      ∧ (let x := Xfer.windowRead .app0 .w64 0x100001 false
         (tOwner x 16).arb.owner.map (fun o => o.r.xfer) = some x ∧ idReserved 0x100001 = false ∧ idClass 0x100001 ≠ 3
           ∧ 0x100001 ∉ (tOwner x 16).ledger.bad)
      ∧ (let s := (tOwner (.lanePost 15) 15).mapLane 15 fun l => { l with post := [{ id := 0x1FFFFFF, value := 1, status := 1, stamp := 2 }] }
         s.arb.owner.map (fun o => o.r.xfer) = some (.lanePost 15) ∧ 15 < s.lanes.length
           ∧ ((s.lane 15).post.map fun p => p.id) = [0x1FFFFFF] ∧ idReserved 0x1FFFFFF = false ∧ idClass 0x1FFFFFF ≠ 3)
      ∧ (let s := (tOwner (.laneRead 15) 15).mapLane 15 fun l => { l with stall := some (.single 0x100001 14) }
         s.arb.owner.map (fun o => o.r.xfer) = some (.laneRead 15) ∧ (s.lane 15).stall = some (.single 0x100001 14)
           ∧ ∀ id ∈ (LaneRead.single 0x100001 14).ids, (idReserved id = false ∧ idClass id ≠ 3) ∧ id ∉ s.ledger.bad) := by
  decide +kernel

/-- A request of requester 23, or an urgent one of lane 2. -/
def tReq : Req := Req.asked 23 (.windowRead .app0 .w64 0x3000FF false) 1
def tUrgent : Req := { Req.asked 2 (.laneRead 2) 1 with urgent := true, eligible := true, sampledAt := some 0 }

theorem test_witness_Arbitration :
    (let s := { tRun with arb := { tRun.arb with reqs := [tReq] } }
     s.arb.head? 23 = some tReq ∧ tReq.eligible = false ∧ s.ptb.holds 23 = false ∧ s.targetReady tReq = true)
      ∧ (let r := { tReq with eligible := true, sampledAt := some 0 }
         let s := { tRun with arb := { tRun.arb with reqs := [r] } }
         s.arb.owner = none ∧ s.select s.fclk = some (3, r) ∧ s.arb.head? 23 = some r ∧ 0 + 1024 ≤ s.fclk + 1 ∧ s.arb.group r = some 3
           ∧ r.promoted = false)
      ∧ (let s := tOwner (.windowRead .app0 .w64 0x3000FF false) 16
         let u := { s with tim := { s.tim with edges := 0 }, arb := { s.arb with reqs := [tUrgent] } }
         u.arb.owner.all (fun o => !o.r.urgent && !o.r.restart && decide (u.fclk < o.lastBeat) && u.preemptor u.fclk o == some tUrgent)
           = true ∧ u.arb.owner.isSome = true)
      ∧ (tRun.arb.winStart + tRun.arb.winLen ≤ tRun.fclk ∧ tRun.arb.pendingCls = none
        ∧ ({ tRun.arb with pendingCls := some ([], 4096, 64) } : Arb).pendingCls = some ([], 4096, 64) ∧ 23 < tRun.arb.per.length)
      ∧ (let l := { tRun.ledger with fills := [3, 4] }
         l.fills = 3 :: [4] ∧ 0 < l.sets ∧ l.pinned (8 * 3) = false) := by decide +kernel

/-- STEP/DIR pair 15 in a given state. -/
def tPair (p : StepPair) : State := { tRun with io := { tRun.io with step := putAt tRun.io.step 15 p } }

theorem test_witness_OutputsAndTriggers :
    (let p := { StepPair.reset with due := [(true, 2)] }
     15 < (tPair p).io.step.length ∧ (tPair p).io.step.getD 15 StepPair.reset = p ∧ p.due = (true, 2) :: [] ∧ p.step = false
       ∧ p.dir ≠ true)
      ∧ (let p := { StepPair.reset with due := [(true, 1)], dir := true }
         p.dir = true ∧ p.dirAt + p.setupNs ≤ (tPair p).time ∧ p.fallAt + p.pulseNs ≤ (tPair p).time)
      ∧ (let p := { StepPair.reset with due := [(true, 1)], dir := true, dirAt := 40000000, setupNs := 1 }
         p.dir = true ∧ (tPair p).time < p.dirAt + p.setupNs)
      ∧ StepPair.reset.due = []
      ∧ (let p := { StepPair.reset with step := true, pulseNs := 2000 }
         p.step = true ∧ p.riseAt + p.pulseNs ≤ (tPair p).time)
      ∧ (let p := { StepPair.reset with step := true, riseAt := 40000000, pulseNs := 1 }
         (tPair p).time < p.riseAt + p.pulseNs)
      ∧ (let s := tRun.mapLcmp 7 fun c => { c with cfg := 0xFFF00000, level := true }
         field (s.lcmp 7).cfg 11 10 = 0 ∧ (s.lcmp 7).level = true ∧ 7 < s.io.lcmp.length
           ∧ (s.lcmp 7).actAt + max (field (s.lcmp 7).cfg 31 20) 1 * 10 ≤ s.time)
      ∧ (tRun.lcmp 7).level = false
      ∧ ((0 : Int) ≤ 1799972 ∧ (1799972 : Int) * 65536 ≤ 1800000 * 65535 ∧ 7 < tRun.io.ain.length
        ∧ tRun.acq.recording = false ∧ tRun.acq.state ≠ .cal)
      ∧ (let s := { tRun with acq := { tRun.acq with state := .armed } }
         s.acq.recording = true ∧ s.io.ainAt.getD 7 none ≠ some ((s.time - 800) / 1000 * 1000) ∧ s.acq.trigCh < 64
           ∧ s.acq.chan.length = 72)
      ∧ (let s := { tRun with io := { tRun.io with ainAt := putAt tRun.io.ainAt 7 (some 39999000) } }
         s.io.ainAt.getD 7 none = some ((s.time - 800) / 1000 * 1000))
      ∧ (let s := tRun.mapTrg 15 fun g => { g with cfg := 0x21 }
         15 < 16 ∧ s.io.trg.length = 16 ∧ (s.trg 15).level = false ∧ (s.trg 15).mode = 1 ∧ 0 < (s.trg 15).minPw)
      ∧ (tRun.trg 15).mode = 0 := by decide +kernel

/-- Feedback port 15 in a given state. -/
def tPort (p : FbPort) : State := { tRun with io := { tRun.io with fb := putAt tRun.io.fb 15 p } }

theorem test_witness_PortInputs :
    (15 < 16 ∧ tRun.io.fb.length = 16 ∧ 0 < (tRun.fb 15).minPw ∧ (tRun.fb 15).minPw ≤ 65535
        ∧ (tRun.io.latTk < tRun.time - (tRun.fb 15).minPw) ∧ tBefore.cyc.sampled = false)
      ∧ (let p := { FbPort.reset with cfg := 0x00519022, ssiPrev := some 3, ssiFirst := false }
         ((tPort p).fb 15).kind = 2 ∧ (ssiDiff (ssiBits (field p.cfg 17 12)) 5 3).natAbs ≤ 2 ^ (ssiBits (field p.cfg 17 12) - 2)
           ∧ ¬ (ssiDiff (ssiBits (field p.cfg 17 12)) (3 + 2 ^ (ssiBits (field p.cfg 17 12) - 1)) 3).natAbs
             ≤ 2 ^ (ssiBits (field p.cfg 17 12) - 2))
      ∧ FbPort.reset.ssiFirst = true
      ∧ (FbPort.reset.kind = 0 ∧ bit FbPort.reset.cfg 3 = false ∧ FbPort.reset.invalid = false
          ∧ (quadIndex 0 + 4 - quadIndex FbPort.reset.levels) % 4 = 0 ∧ (quadIndex 1 + 4 - quadIndex FbPort.reset.levels) % 4 = 1
          ∧ (quadIndex 2 + 4 - quadIndex FbPort.reset.levels) % 4 = 3 ∧ (quadIndex 3 + 4 - quadIndex FbPort.reset.levels) % 4 = 2
          ∧ FbPort.reset.edges = 0)
      ∧ (let p := { FbPort.reset with edges := 1, tLast := 100, invalid := true }
         p.edges ≠ 0 ∧ 139 < p.tLast + 40 ∧ ¬ 140 < p.tLast + 40 ∧ p.invalid = true) := by decide +kernel

/-- A SCMP_CFG value with ARM for axis 255, and on which side of it a value of the unit 31 lies. -/
def tSetNow : Word := 0x10FF
def tBehind (x : Word64) : Bool :=
  let s := tRun.mapIo fun io => { io with scmp := setAt io.scmp 31 fun c => { c with val := x } }
  let run := (s.axis (field tSetNow 7 0)).run
  behindOf (field tSetNow 9 8) ((run.posFb.extractLsb' 32 64).toInt - (s.scmp 31).val.toInt) (bit run.stat 27) run.prim.standstill

theorem test_witness_CompareAndClears :
    (7 < 8 ∧ tRun.io.lcmp.length = 8 ∧ ({ tRun.io with cmpWrites := [(7, .step, 5)] } : Local).cmpWrites = [(7, .step, 5)])
      ∧ (let s := tRun.mapIo fun io => { io with cmpWrites := [(7, .val, 5)] }
         s.io.cmpWrites = [(7, .val, 5)] ∧ (5 : Word) ≠ (s.lcmp 7).val.extractLsb' 0 32
           ∧ s.isBehind { s.lcmp 7 with val := (5 : Word).setWidth 64 } = false)
      ∧ ({ tRun.io with cmpWrites := [(7, .cfg, 0x1000)] } : Local).cmpWrites = [(7, .cfg, 0x1000)]
      ∧ (31 < 32 ∧ tRun.io.scmp.length = 32 ∧ tRun.pairOf (0x40150404 + 0x20 * 31) 0 = (tRun.scmp 31).val)
      ∧ (bit tSetNow 12 = true ∧ tBehind 0 = true ∧ tBehind 1 = false)
      ∧ bit (0xFF : Word) 12 = false
      ∧ (let s := tPort { FbPort.reset with overrate := true }
         15 < s.io.fb.length ∧ (s.fb 15).overrate = true ∧ s.io.lcmp.length = 8)
      ∧ (tRun.fb 15).overrate = false ∧ field tRun.io.axSel 7 0 < tRun.axes.length := by decide +kernel

/-- The acquisition engine in a given state, with a ring at the start of permitted DRAM and the last channel of each kind. -/
def tAcq (st : AcqState) (f : Acq → Acq) : State :=
  { tRun with acq := f { tRun.acq with state := st, base := 0x801000000, size := 16, fch := putAt tRun.acq.fch 7 0x100,
                                       ch := putAt tRun.acq.ch 63 0x2100001 } }

theorem test_witness_AcquisitionCommands :
    ((tAcq .idle id).acq.state = .idle ∧ (tAcq .idle id).acqRefusal = 0)
      ∧ ((tAcq .done id).acq.state = .done ∧ (tAcq .done id).acqRefusal = 0)
      ∧ (tRun.acq.state = .idle ∧ tRun.acqRefusal ≠ 0)
      ∧ (let s := tAcq .filling id
         ¬(s.acq.state = .idle ∨ s.acq.state = .done) ∧ s.acq.recording = true ∧ s.acq.state ≠ .armed ∧ s.acq.state ≠ .post)
      ∧ (let s := tAcq .post fun a => { a with placedAt := some (0, true) }
         s.acq.state ≠ .armed ∧ (s.acq.placedAt.map fun e => e.1 / 1000) ≠ some (s.time / 1000))
      ∧ ((tAcq .armed id).acq.state = .armed ∧ (tAcq .cal id).acq.state = .cal)
      ∧ (let s := { tAcq .cal id with tim := { tRun.tim with now := 1000000000 } }
         s.acq.state = .cal ∧ s.acq.calStart + 1000000000 ≤ s.time) := by decide +kernel

/-- The engine in a state with its trigger on fast channel 7, that takes the TRG levels, rising past 1. -/
def tLevel (st : AcqState) (f : Acq → Acq) : State :=
  tAcq st fun a => f { a with trig := 71, fch := putAt a.fch 7 0x120 }

theorem test_witness_AcquisitionStream_level :
    (let s := tLevel .armed id
     s.acq.recording = true ∧ s.acq.fastAt ≠ some (s.time / 1000 * 1000) ∧ s.acq.trigCh = 64 + 7 ∧ s.acq.fastSrc 7 ≠ 0
       ∧ s.acq.compared 71 (s.fastValue 0 7) = 0 ∧ (s.acq.fires 0 1 none).1 = false ∧ (s.acq.fires 1 1 none).1 = true)
      ∧ (let s := (tLevel .armed id).mapTrg 0 fun g => { g with level := true }
         s.acq.compared 71 (s.fastValue 0 7) = 1 ∧ s.acq.state = .armed)
      ∧ (let s := (tLevel .post fun a => { a with placedAt := some (40000500, true), ttime := 40000500, trigAt := some (1, 9) }).mapTrg 0
            fun g => { g with level := true }
         s.acq.recording = true ∧ s.acq.compared 71 (s.fastValue 0 7) = 1 ∧ s.beaten true (40000000 * 256) = true
           ∧ s.beaten true (40000501 * 256) = false ∧ s.acq.trigAt = some (1, 9)) := by decide +kernel

theorem test_witness_AcquisitionStream :
    (let s := tAcq .armed id
     s.acq.recording = true ∧ s.acq.fastAt ≠ some (s.time / 1000 * 1000) ∧ s.acq.trigCh < 64 ∧ s.acq.chan.length = 72
       ∧ s.acq.fastEn 7 = true ∧ s.acq.fFirst ≤ s.time / 1000 * 1000
       ∧ s.acq.fFirst + 2 ^ s.acq.fLog * 1000 ≤ s.time ∧ s.cycleReady = true ∧ s.acq.checkAt ≠ some (s.time / 1000000)
       ∧ ¬(max (field s.acq.bw 15 0) 1 * 1000 < s.acq.bytes ∨ 196608 < s.acq.staged))
      ∧ (let a := (tAcq .armed fun a => { a with bytes := 400001 }).acq
         max (field a.bw 15 0) 1 * 1000 < a.bytes)
      ∧ (∀ st ∈ [AcqState.armed, .filling],
          let a := (tAcq st fun a => { a with blocksOut := [(1, [])], moved := 16 }).acq
          a.blocksOut = (1, []) :: [] ∧ 16 * 1 ≤ a.moved ∧ a.state = st ∧ a.size ≠ 0) := by decide +kernel

/-- Roles and claims of a unit of a pair. -/
def tRole (r : Role) (link : Bool) (active : Option Charter) : State :=
  { tRun with cht := { tRun.cht with active := active }, par := { Par.reset with role := r, link := link, gridSet := true } }

/-- An issue header of an epoch. -/
def tHeader (epoch : Word) : IssueHdr :=
  { hdr := [1, 0, 0, 0, 0, 0, 0, epoch, 0], crcRx := crcWords [1, 0, 0, 0, 0, 0, 0, epoch, 0], arrUi := 0, symErrs := 0 }

theorem test_witness_PairHeard :
    tRun.par.role ≠ .standby
      ∧ ((tRole .standby true (some tCharter)).par.role = .standby ∧ (tRole .standby true (some tCharter)).cht.active = some tCharter
        ∧ (tRole .standby true (some tCharter)).par.gridSet = true)
      ∧ (let s := { tRole .standby true (some tCharter) with par := { tStandby.par with gridSet := false }
                                                             ledger := { tRun.ledger with ready := true } }
         s.par.role = .standby ∧ s.par.gridSet = false ∧ s.ledger.ready = true)
      ∧ ((tRole .active true none).par.link = true ∧ (tRole .active true none).cht.active = none)
      ∧ (let c := { tCharter with pair := true }
         let s := tRole .active true (some c)
         s.par.link = true ∧ s.cht.active = some c ∧ c.pair = true ∧ s.lineUp = false ∧ s.lanes.length = 16 ∧ s.par.role ≠ .isolated)
      ∧ ((tRole .active false none).par.link = false ∧ (tRole .active false none).par.role ≠ .seeking)
      ∧ (let s := { tRole .seeking false none with par := { (tRole .seeking false none).par with heardAt := some 40000000, lease := 1 } }
         s.par.role = .seeking ∧ s.par.link = false ∧ s.cht.active = none
           ∧ (let u := { s with cyc := { s.cyc with service := 1 } }
              u.lapsed = false))
      ∧ (31 < tStandby.ports.length ∧ ({ hdr0 with crcRx := 0 } : IssueHdr).crcOk = false)
      ∧ (let h := tHeader 4
         h.crcOk = true ∧ h.epoch < ({ tStandby with par := { tStandby.par with highest := 5 } } : State).heardEpoch)
      ∧ (let s := tRole .active true (some tCharter)
         let u := { s with par := { s.par with holds := true, epoch := 5 } }
         (tHeader 5).crcOk = true ∧ u.heardEpoch ≤ (tHeader 5).epoch ∧ u.par.holds = true ∧ (tHeader 5).epoch ≤ u.par.epoch
           ∧ u.par.epoch < (tHeader 6).epoch ∧ u.reduced = false ∧ u.lanes.length = 16)
      ∧ (tStandby.heardEpoch ≤ (tHeader 1).epoch ∧ (tHeader 1).epoch ≠ 0 ∧ tStandby.par.holds = false ∧ tStandby.par.claimAt = none
        ∧ tStandby.par.role ≠ .seeking)
      ∧ (let s := tRole .seeking true (some tCharter)
         s.par.role = .seeking ∧ s.par.link = true ∧ 0 < ((tHeader 1).lease + 2) * s.period) := by decide +kernel

/-- A standby with an Escrow open. -/
def tEscrow : State := { tStandby with par := { tStandby.par with rxK := some 9, rxCount := 1 }, teller := tTeller.teller }

theorem test_witness_EscrowReceived :
    (tEscrow.par.role = .standby ∧ tEscrow.par.rxK = some 9 ∧ memWf tEscrow.pages = true ∧ (List.replicate 8 (5 : Word)).length = 8
        ∧ mirroredClass (idClass 0x1FFFFFF) = true ∧ idReserved 0x1FFFFFF = false ∧ memWf tEscrow.ledger.mem = true
        ∧ mirroredClass (idClass 0x300000) = false
        ∧ 7 < tEscrow.teller.lists.length ∧ 31 < tEscrow.ports.length ∧ 255 < tEscrow.axes.length ∧ 0 ≠ tEscrow.par.rxCount + 1)
      ∧ (({ tEscrow with cht := Cht.reset } : State).cht.active = none ∧ tEscrow.cht.active = some tCharter)
      ∧ (tStandby.heardEpoch ≤ 1 ∧ tStandby.par.holds = false ∧ tStandby.par.role ≠ .seeking ∧ tStandby.par.claimAt = none)
      ∧ (let s := { tStandby with par := { tStandby.par with claimAt := some 9, renew := 8 } }
         s.par.claimAt = some 9 ∧ s.par.takeStep ≠ .goSent ∧ s.byNext (some 1024) = true)
      ∧ 4 < ({ tStandby with par := { tStandby.par with highest := 5 } } : State).heardEpoch := by decide +kernel

/-- A standby primary that may take back. -/
def tBack : State := { tStandby with par := { tStandby.par with sync := true } }

/-- A unit of a pair in a role whose mirror link has the state given, that has heard a holder or not. -/
def tLink (r : Role) (link : Bool) (heard : Option Nat) : State :=
  let s := tRole r link (some { tCharter with pair := true })
  { s with par := { s.par with heardAt := heard } }

theorem test_witness_PairHeard_link :
    (∀ r ∈ [Role.seeking, .isolated], ∀ h ∈ [none, some 40000000],
        (tLink r false h).par.link = false ∧ (tLink r false h).par.role = r ∧ (tLink r false h).lapsed = h.isNone
          ∧ (tLink r false h).cht.active = some { tCharter with pair := true })
      ∧ ((tLink .active false none).par.role ≠ .seeking ∧ (tLink .active false none).par.role ≠ .isolated)
      ∧ (let s := (tLink .isolated true none).mapPort 31 fun q => { q with linkUp := true }
         s.par.link = true ∧ s.lineUp = true ∧ s.par.role = .isolated)
      ∧ (let s := (tLink .active true none).mapPort 31 fun q => { q with linkUp := true }
         (s.lineUp = true ↔ s.par.role ≠ .isolated))
      ∧ ({ hdr0 with symErrs := 3 } : IssueHdr).symErrs ≠ 0 := by decide +kernel

/-- A standby that has acknowledged a takeback of cycle 10, with the Escrow of cycle 9 open; a holder that hears GO in cycle 1024. -/
def tTaken : State := { tEscrow with par := { tEscrow.par with takeStep := .acked, takeAt := 10 } }
def tYields (frozen : Bool) : State :=
  { tRun with par := { tRun.par with role := .active, takeStep := .acked, takeAt := 1024 }, cyc := { tRun.cyc with frozen := frozen } }

theorem test_witness_ClaimsAndTakeback_go :
    (tTaken.par.rxK = some 9 ∧ tTaken.par.takeStep = .acked ∧ 9 + 1 = tTaken.par.takeAt)
      ∧ (mirroredClass (idClass 0x140000) = true ∧ idReserved 0x140000 = true)
      ∧ (∀ b ∈ [false, true], (tYields b).par.holds = true ∧ (tYields b).par.takeStep = .acked
        ∧ (tYields b).cyc.k = (tYields b).par.takeAt ∧ (tYields b).cyc.frozen = b ∧ (tYields b).lanes.length = 16) := by decide +kernel

theorem test_witness_ClaimsAndTakeback :
    (∀ r ∈ [1021, 1022],
        let s := { tStandby with par := { tStandby.par with renew := r } }
        let late := (s.cyc.tk : Int) + ((s.par.renew + 3 : Nat) - (s.cyc.k : Int)) * (s.period : Int) ≤ (s.time : Int)
        s.par.role = .standby ∧ s.par.claimAt = none ∧ (s.par.link || s.lineUp) = true ∧ s.par.gridSet = true ∧ (r = 1021 ↔ late))
      ∧ tRun.par.role ≠ .standby
      ∧ (∀ u ∈ [false, true], ∀ sv ∈ [1, 2],
          let s0 := tRole .seeking true (some tCharter)
          let s := { s0 with par := { s0.par with unit := u }, cyc := { s0.cyc with service := sv } }
          s.par.role = .seeking ∧ s.par.claimAt = none ∧ s.cht.active = some tCharter ∧ (s.par.link || s.lineUp) = true
            ∧ (sv = 2 → s.lapsed = true))
      ∧ (let s0 := tRole .seeking true (some tCharter)
         let s := { s0 with cyc := { s0.cyc with service := 1 }, tim := { s0.tim with now := 100000000 } }
         s.lapsed = true ∧ s.par.seekSince + 100000000 ≤ s.tim.now ∧ 99999999 < s.par.seekSince + 100000000)
      ∧ tRun.par.role ≠ .seeking
      ∧ (tBack.mayTakeBack = true ∧ tBack.par.inhibit = false ∧ tRun.mayTakeBack = false
        ∧ ({ tBack.par with inhibit := true } : Par).inhibit = true)
      ∧ (let s := tRole .active false none
         s.cyc.num < 1024 ∧ 1023 ≤ s.cyc.num ∧ s.par.takeStep = .none ∧ s.par.role = .active)
      ∧ (tBack.cyc.num < 1024 ∧ tBack.par.takeStep = .none ∧ tBack.par.role = .standby ∧ tBack.par.sync = true
        ∧ tBack.par.claimAt = none)
      ∧ (∀ st ∈ [TakeStep.requested, .asked], let p := { Par.reset with takeStep := st }
         p.takeStep = .requested ∨ p.takeStep = .asked)
      ∧ (let s := { tRun with par := { tRun.par with role := .active, takeStep := .acked, takeAt := 1025 } }
         s.par.holds = true ∧ s.par.role = .active ∧ s.par.takeStep = .acked ∧ s.cyc.k < s.par.takeAt ∧ s.par.takeStep ≠ .none
           ∧ s.par.takeStep ≠ .requested ∧ s.par.takeStep ≠ .asked)
      ∧ ({ tRun.par with takeAt := 1023 } : Par).takeAt < tRun.cyc.k ∧ tRun.par.takeStep ≠ .acked ∧ tRun.par.role ≠ .active := by
  decide +kernel

theorem test_witness_Perturbations :
    (let s := { tRun with srm := { tRun.srm with authValid := true, authId := 7, auths := [7] } }
     s.unlocks s.cht.active = true) ∧ tRun.unlocks tRun.cht.active = false
      ∧ (∀ n < 16, (tRun.lane n).job = none) ∧ (tRun.clk.lock = true ∧ tRun.clk.holdover = false)
      ∧ (let s := tSwap .armed 1024
         s.cht.phase ≠ .toT0 ∧ s.charter = some tCharter ∧ s.cyc.service = 2 ∧ s.cyc.sampled = true ∧ s.cht.stage = .armed
           ∧ s.cht.swapAt.toNat = s.cyc.k ∧ s.cht.staged.isSome = true
           ∧ s.unlocks (some { tCharter with charterId := 2 }) = false)
      ∧ (let s := { tRun with ptb := { Ptb.reset with dropA := 0x30300, bpA := 0x000A00, bpActs := true } }
         s.cht.stage ≠ .armed ∧ s.ptb.dropW = false ∧ field s.ptb.dropA 9 8 ≠ 0 ∧ s.pending = [] ∧ s.ptb.bpWait = false
           ∧ field s.ptb.bpA 27 8 ≠ 0xFFFFF ∧ ({ s.tim with edges := 40000001 } : Tim).edges % 2 = 1)
      ∧ (let p := { Ptb.reset with dropActs := true, dropA := 0x300 }
         p.dropActs = true ∧ field p.dropA 23 16 = 0)
      ∧ (let p := { Ptb.reset with bpActs := true, bpA := 31 }
         p.bpActs = true ∧ field p.bpA 27 8 = 0)
      ∧ ¬(tRun.ptb.dropActs = true ∧ field tRun.ptb.dropA 23 16 = 0) ∧ ¬(tRun.ptb.bpActs = true ∧ field tRun.ptb.bpA 27 8 = 0) := by
  decide +kernel

/-- Self-test in wave n. -/
def tWave (n : Nat) : State := { State.reset with bst := { Bst.reset with running := true, wave := n } }

theorem test_witness_WavesEnd :
    State.reset.bst.running = false
      ∧ (∀ n ∈ List.range 6, (tWave n).bst.running = true ∧ (tWave n).bst.wave = n ∧ (tWave n).bst.wave < (tWave n).bst.waves.length)
      ∧ (∀ n ∈ List.range 6, waveVerdict n (segAssays [(7, 9)] [{ done := true, count := 7, sig := 9 }])
          { meas0 with refs := [(0, 0)], ainDev := [0] } = .pass)
      ∧ waveVerdict 5 (segAssays [(7, 9)] [{ done := false, count := 7, sig := 9 }]) meas0 ≠ .pass
      ∧ segAssays [(7, 9), (7, 9)] [{ done := true, count := 6, sig := 9 }, { done := true, count := 7, sig := 8 }]
          = [.incomplete, .fail]
      ∧ (tWave 5).srm.lockout = false ∧ ({ Srm.reset with lockout := true } : Srm).lockout = true ∧ (tWave 5).bst.released = false := by
  decide +kernel

theorem test_witness_KeysAndJtag :
    (let s := { tRun with bst := { tRun.bst with released := false } }
     s.bst.verdict = .pass ∧ s.srm.lockout = false ∧ s.bst.released = false ∧ s.dbk.region = 0 ∧ s.dbk.derated = false)
      ∧ (({ Dbk.reset with region := 1 } : Dbk).region ≠ 0 ∧ ({ Dbk.reset with derated := true } : Dbk).derated = true)
      ∧ (tRun.srm.jtagOpen = false ∧ tRun.bst.released = true ∧ State.reset.bst.verdict ≠ .pass)
      ∧ (let r := { Srm.reset with jtagOpen := true }
         r.jtagOpen = true ∧ r.lockout = false) := by decide +kernel

/-- A holding block without stations. -/
def tBlock : HoldBlock :=
  { format := 1, charterId := 1, slots := [], axes := []
    digest := natBytes 32 0x2443085e6d56c5a38e87a1a3153ea6e48d03f3e53aeb0a1b98c02f948493a8e8 }

/-- A primary at the end of its listen, with a holding block. -/
def tListen (h : Option HoldBlock) (heard unit : Bool) : State :=
  { State.reset with bst := { Bst.reset with listening := true, hold := h, heard := heard }, par := { Par.reset with unit := unit } }

theorem test_witness_ListenEnds :
    State.reset.bst.listening = false
      ∧ (let s := tListen (some tBlock) false false
         s.bst.listening = true ∧ s.bst.hold = some tBlock ∧ tBlock.digest = sha256 (bytesOf tBlock.words) ∧ tBlock.format = 1 ∧ s.par.unit = false
           ∧ s.bst.heard = false ∧ s.cyc.service = 0 ∧ s.cht.active = none)
      ∧ (tRun.cyc.service ≠ 0 ∧ tRun.cht.active ≠ none)
      ∧ ((tListen none false true).bst.listening = true ∧ (tListen none false true).par.unit = true)
      ∧ ((tListen none false false).bst.hold = none ∧ ({ tBlock with digest := [] } : HoldBlock).digest ≠ sha256 (bytesOf tBlock.words)
        ∧ ({ tBlock with format := 2 } : HoldBlock).format ≠ 1)
      ∧ (tListen (some tBlock) true false).bst.heard = true := by decide +kernel

/-- A public key and the SHA-256 of it. -/
def tKey : List Word :=
  [0x7048596D, 0xB02BE290, 0x467485B9, 0xBEA7771E, 0x5BA7C80E, 0x96BDE738, 0x0DED69D8, 0x7E5F7B89,
   0xA4D52F5A, 0xF23B294A, 0x2A76364F, 0xD249FD0B, 0x66C8CEFB, 0xDEE74A81, 0x64B4F625, 0xBD2DD937]
def tKeyHash : List Byte := natBytes 32 0xb866197f0b2bdf570d02d284dcdde275bb647b34a2c85150ad28378432472c47

/-- Signatures of that key over the words 0 to 12 of requests that revoke slot 0 (signer slot 1), give authority 7 and open JTAG
(vendor key). -/
def tSigRevoke : List Word :=
  [0x568CC2AE, 0x952A72A2, 0x96390BBF, 0xD1224C8D, 0x06B6DDE0, 0x0338385B, 0x5992D6C3, 0xCBC524A5,
   0xF32264B0, 0xD19E90F1, 0x2F33BF99, 0xE379C967, 0x1312C7D5, 0x73A565AB, 0x94DCBDE1, 0x8519B517]
def tSigAuth : List Word :=
  [0xBA2AF1CD, 0x0B4D5DCC, 0x3D5D866D, 0x4DB51BCE, 0x85FC6849, 0x8C0A89D8, 0x394BFD65, 0x4DF27C7A,
   0x398E0297, 0x10F8A7A5, 0xB91ABB9C, 0x2990252D, 0x3E47D09A, 0x0BD916B9, 0x0A3814F8, 0x0E6B7A48]
def tSigJtag : List Word :=
  [0xA268BD8B, 0xF9FEB59D, 0x72596C88, 0xEE6CCDA4, 0x2ED08517, 0x8F53CA4B, 0x0C286668, 0x780CC18F,
   0xB6DCA02E, 0x2043F808, 0x9BC9D70C, 0x065BAE39, 0x59153063, 0x311BC678, 0x7AE75952, 0xB1B7FB90]

/-- The record of a request. -/
def tRequest (kind auth signer : Word) (sig : List Word) : List Word :=
  [kind, auth] ++ List.replicate 10 0 ++ [signer] ++ tKey ++ sig

/-- A Strongroom that checks a request, with slots 0 and 1 in given states, their key and the vendor key the one above. -/
def tStrong (st : Nat) (q : List Word) : State :=
  { tRun with srm := { Srm.reset with
      busy := true, pendingReq := q, vendorHash := tKeyHash,
      slots := List.replicate 2 { st := st, hash := tKeyHash } ++ List.replicate 2 { st := 0, hash := [] } } }

theorem test_witness_StrongroomRequests :
    (({ Srm.reset with busy := true } : Srm).busy = true ∧ tRun.srm.busy = false)
      ∧ (let s := tStrong 1 (tRequest 5 0 1 tSigRevoke)
         s.srm.busy = true ∧ s.srm.judge s.srm.pendingReq ≠ 0)
      ∧ (let s := tStrong 0 ([0x301] ++ List.replicate 44 0)
         s.srm.busy = true ∧ s.srm.judge s.srm.pendingReq = 0 ∧ field (s.srm.pendingReq.getD 0 0) 7 0 = 1) := by decide +kernel

theorem test_witness_StrongroomRequests_signed :
    ((tStrong 1 (tRequest 2 0 1 tSigRevoke)).srm.judge (tRequest 2 0 1 tSigRevoke) = 0)
      ∧ ((tStrong 1 (tRequest 3 7 0x80000000 tSigAuth)).srm.judge (tRequest 3 7 0x80000000 tSigAuth) = 0)
      ∧ ((tStrong 1 (tRequest 4 0 0x80000000 tSigJtag)).srm.judge (tRequest 4 0 0x80000000 tSigJtag) = 0) := by decide +kernel

/-- A part whose planner has restored its settings. -/
def tAged (f : Age → Age) : State := { tRun with age := f { tRun.age with restored := true, vcore := 840 } }

theorem test_witness_MonitorsAndVcore :
    (let s := tAged id
     s.bst.released = true ∧ s.age.restored = true
       ∧ s.ageing.reservePs ≤ leastSlack ((List.range 21).map fun i => reading0.slack.getD i 0))
      ∧ ((tAged fun a => { a with vcore := 850 }).ageing.vcoreMax ≤ (tAged fun a => { a with vcore := 850 }).age.vcore
        ∧ (tAged fun a => { a with pmbStopped := true }).age.pmbStopped = true)
      ∧ (let s := tAged id
         let r := { reading0 with slack := putAt reading0.slack 20 59, after := [61] }
         leastSlack ((List.range 21).map fun i => r.slack.getD i 0) < s.ageing.reservePs ∧ s.age.vcore < s.ageing.vcoreMax
           ∧ s.ageing.vcoreMax ≤ 850 ∧ 700 ≤ s.age.vcore ∧ s.age.pmbStopped = false ∧ r.after = [61])
      ∧ (let s := (tAged id).mapPort 31 fun q => { q with linkUp := true }
         31 < s.ports.length ∧ (s.port 31).linkUp = true ∧ eyeLow (eyeWord (24, 40)) = true)
      ∧ (State.reset.bst.released = false ∧ tRun.age.restored = false ∧ tRun.pmb.verify = none)
      ∧ (let s := { tAged id with pmb := { Pmb.reset with verify := some 800 } }
         s.pmb.verify = some 800 ∧ s.age.restored = true ∧ s.age.raising = none ∧ 800 + 5 < 806 ∧ 794 + 5 < 800)
      ∧ (let q : Raise := { old := 830, v0 := 820, m0 := 40, after := [50, 61] }
         let s := { tAged (fun a => { a with raising := some q }) with pmb := { Pmb.reset with verify := some 840 } }
         s.age.raising = some q ∧ s.pmb.verify = some 840 ∧ s.age.restored = true ∧ 50 < s.ageing.reservePs ∧ ¬ 61 < s.ageing.reservePs
           ∧ s.age.vcore < s.ageing.vcoreMax ∧ s.age.pmbStopped = false ∧ 1 < q.after.length ∧ q.v0 < s.age.vcore)
      ∧ (let y : PmbReply := { iout := 0, status := 0, nack := true, pecErr := false }
         y.nack = true ∧ ({ y with nack := false } : PmbReply).nack = false ∧ ({ y with pecErr := true } : PmbReply).pecErr = true)
      ∧ (∀ v ∈ [750, 690, 860],
          let s := { tRun with age := { tRun.age with restored := false, vcore := v }, pmb := { Pmb.reset with verify := some v } }
          s.pmb.verify = some v ∧ s.bst.released = true ∧ s.age.restored = false ∧ s.dbk.vcore.getD 750 = 750 ∧ s.age.vcore = v) := by
  decide +kernel

theorem test_witness_RetuneDerateProject :
    tRun.age.retunes = []
      ∧ (let q : Retune := { rx := 31, base := 30, trials := [(30, 40, 40)] }
         let s := tAged fun a => { a with retunes := [q] }
         s.age.retunes = q :: [] ∧ q.trials = [(30, 40, 40)] ∧ 0 < q.base ∧ q.base < 31 ∧ q.rx < 32)
      ∧ (let q : Retune := { rx := 31, base := 30, trials := [(30, 40, 40), (31, 41, 40)] }
         let s := tAged fun a => { a with retunes := [q] }
         s.age.retunes = q :: [] ∧ q.trials = [(30, 40, 40), (31, 41, 40)] ∧ q.rx < s.ports.length)
      ∧ (let s := { tAged (fun a => { a with derateDue := true }) with cht := { tRun.cht with activeSafe := true } }
         s.age.derateDue = true ∧ s.ageing.permit = true ∧ s.cht.activeSafe = true ∧ tRun.cht.activeSafe = false)
      ∧ tRun.age.derateDue = false ∧ tRun.age.restored = false
      ∧ (∀ n ∈ [12, 89], let s := tAged fun a => { a with daily := List.replicate n (0, 0, 0) }
         s.bst.released = true ∧ s.age.restored = true ∧ s.age.daily.length = n)
      ∧ ([(1501 : Int)] ≠ [] ∧ [(1501 : Int)].length ≤ 8 ∧ (∃ x ∈ [(1501 : Int)], 1500 < x) ∧ (∀ x ∈ [(1480 : Int)], x ≤ 1480)
          ∧ (∀ x ∈ [(1500 : Int)], x ≤ 1500) ∧ (∃ x ∈ [(1500 : Int)], 1480 < x) ∧ State.reset.bst.released = false) := by
  decide +kernel

theorem test_witness_DaybookCommands :
    tRun.dbk.ready = false
      ∧ (let s := { underAxis tRun with dbk := { Dbk.reset with ready := true, arg := 0xFF } }
         s.dbk.ready = true ∧ s.dbk.busy = false ∧ field s.dbk.arg 7 0 < s.axes.length ∧ s.cht.active = some tAxisCharter
           ∧ ∀ r ∈ tAxisCharter.axes, r.axis < 256)
      ∧ ({ Dbk.reset with busy := true } : Dbk).busy = true ∧ tRun.dbk.exporting = none
      ∧ (let s := { tRun with
           dramMib := 4096
           dbk := { Dbk.reset with
             ready := true, dst := 0x801000000, dstLen := 3
             exporting := some [{ type := 1, stamp := 0, content := [], live := true }] } }
         let w := ([{ type := 1, stamp := 0, content := [], live := true }] : List DbkRec).flatMap DbkRec.words
         s.dbk.exporting = some [{ type := 1, stamp := 0, content := [], live := true }] ∧ w.length ≤ s.dbk.dstLen.toNat
           ∧ s.dramOk s.dbk.dst.toNat (4 * w.length) = true ∧ (2 : Word).toNat < w.length
           ∧ ({ s with dramMib := 0 } : State).dramOk s.dbk.dst.toNat (4 * w.length) = false) := by decide +kernel

theorem test_witness_RegisterAccess :
    tRun.glb.accessErr = 0 ∧ ({ Glb.reset with accessErr := 2 } : Glb).accessErr ≠ 0 ∧ (∃ u : State, u.glb = tRun.glb)
      ∧ tRun.inBar 0x44000000 = false :=
  ⟨by decide +kernel, by decide, ⟨tRun, rfl⟩, by decide +kernel⟩

end Sys2Proof.Tests
end

section
/-!
PROOFS. The Ledger window, from the request to the last beat of the transfer (R287 to R295).
-/
namespace Sys2Proof.Laws

open Sys2Proof Sys2Proof.Machine

/-- A permitted window access names its entry and the half it is of. -/
theorem windowForm_permitted {w : Width} {id : Nat} {hi : Bool} (h : (w = .w64 ∧ hi = false) ∨ w = .w32) :
    windowForm w (0x50000000 + 8 * id + (if hi then 4 else 0)) = some (id, hi) := by
  rcases h with ⟨rfl, rfl⟩ | rfl
  · simp [windowForm]
  · cases hi
    · simp [windowForm]
    · have hhigh : (8 * id + 4) % 8 = 4 := by omega
      have hid : (8 * id + 4) / 8 = id := by omega
      simp [windowForm, Nat.add_assoc, hhigh, hid]

/-- No access of 8 or 16 bits is permitted. -/
theorem windowForm_narrow {w : Width} {addr : Nat} (h : w = .w8 ∨ w = .w16) : windowForm w addr = none := by
  rcases h with rfl | rfl <;> rfl

/-- A lookup changes the counts, the lines held and the fills asked for. -/
theorem lookup_frame (l : Ledger) (id : Nat) :
    l.lookup id = { l with
      hits := (l.lookup id).hits, misses := (l.lookup id).misses, lines := (l.lookup id).lines, fills := (l.lookup id).fills } := by
  unfold Ledger.lookup
  split
  · rfl
  · dsimp only
    split
    · rfl
    · split <;> rfl

/-- Room made in the write buffer changes the lines held, the fills asked for and the buffer. -/
theorem room_frame (l : Ledger) :
    l.room = { l with lines := l.room.lines, fills := l.room.fills, wbuf := l.room.wbuf } := by
  unfold Ledger.room
  split
  · split <;> rfl
  · rfl

/-- The Ledger after a write of an entry that is stored: the line is looked up and, where it is not held, the beat waits. -/
def ledgerPut (l : Ledger) (id : Nat) (e : Word64) : Ledger :=
  let l1 := ({ l with mem := memWrite l.mem id e, bad := l.bad.filter fun i => i != id }).lookup id
  if l1.held id then l1 else { l1.room with wbuf := l1.room.wbuf ++ [lineId id] }

theorem ledgerPut_frame (l : Ledger) (id : Nat) (e : Word64) :
    ledgerPut l id e = { l with
      mem := memWrite l.mem id e, bad := l.bad.filter fun i => i != id
      hits := (ledgerPut l id e).hits, misses := (ledgerPut l id e).misses, lines := (ledgerPut l id e).lines
      fills := (ledgerPut l id e).fills, wbuf := (ledgerPut l id e).wbuf } := by
  have hl := lookup_frame { l with mem := memWrite l.mem id e, bad := l.bad.filter fun i => i != id } id
  unfold ledgerPut
  dsimp only
  generalize Ledger.lookup _ id = l1 at hl ⊢
  split
  · rw [hl]
  · have hr := room_frame l1
    generalize l1.room = l2 at hr ⊢
    rw [hr, hl]

/-- A write to an identifier that is stored puts its entry into the Ledger; the identifier joins the Escrow. -/
theorem writeEntry_plain {s : State} {req id : Nat} {e : Word64} (hr : idReserved id = false) (hc : idClass id ≠ 3) :
    s.writeEntry req id e = (s.mapLedger fun l => ledgerPut l id e).mapPar fun p => p.dirty id := by
  simp only [State.writeEntry, hr, hc, if_false, Bool.false_eq_true]
  rfl

/-- Such a write has taken effect in the sense of `State.wrote`. -/
theorem wrote_ledgerPut {s t : State} {id : Nat} {e : Word64} (hm : memWf s.ledger.mem = true)
    (hl : t.ledger = ledgerPut s.ledger id e) (hp : t.par = s.par.dirty id) : s.wrote t id e := by
  have hf := ledgerPut_frame s.ledger id e
  rw [← hl] at hf
  have hmem : t.ledger.mem = memWrite s.ledger.mem id e := by rw [hf]
  refine ⟨?_, ?_, ?_, hp⟩
  · rw [hmem]; exact memRead_memWrite_same _ _ _ hm
  · intro i hi; rw [hmem]; exact memRead_memWrite_ne _ _ _ _ hi hm
  · rw [hmem]; exact hf

/-- A read without an error of an identifier that is stored returns its entry and changes nothing. -/
theorem readEntry_plain {s : State} {req id : Nat} (hr : idReserved id = false) (hc : idClass id ≠ 3) (hb : id ∉ s.ledger.bad) :
    s.readEntry req id .clean = (memRead s.ledger.mem id, s) := by
  simp [State.readEntry, State.entryOf, hr, hc, hb]

theorem readEntries_plain {s : State} {req : Nat} {ids : List Nat}
    (h : ∀ id ∈ ids, (idReserved id = false ∧ idClass id ≠ 3) ∧ id ∉ s.ledger.bad) :
    s.readEntries req [] ids = (ids.map fun id => memRead s.ledger.mem id, s) := by
  induction ids with
  | nil => rfl
  | cons id ids ih =>
    obtain ⟨⟨hr, hc⟩, hb⟩ := h id (List.mem_cons_self ..)
    have hrest := ih fun i hi => h i (List.mem_cons_of_mem id hi)
    simp [State.readEntries, readEntry_plain hr hc hb, hrest]

/-- The entry that a window write leaves, by its form. -/
theorem windowEntry_eq (w : Width) (hi : Bool) (old v : Word64) (num : Nat) :
    windowEntry w hi old v num = match w, hi with
      | .w64, _ => v
      | _, true => entry (entryValue old) (field v 7 0) (field v 31 8)
      | _, false => entry (v.setWidth 32) (entryStatus old) (num % 2 ^ 24) := by
  have hlow : v.extractLsb' 0 32 = v.setWidth 32 := by
    apply BitVec.eq_of_toNat_eq; simp
  cases w <;> cases hi <;> simp [windowEntry, hlow]

/-- The last beat of the transfer under way: it leaves the fabric, and then takes effect. -/
theorem transferComplete_lastBeat {s : State} {o : Owner} (ecc : List Ecc) (ho : s.arb.owner = some o) (hb : o.lastBeat ≤ s.fclk) :
    exec (.transferComplete ecc) s = .next ((s.mapArb fun a => a.finish s.fclk o).lastBeat o.r ecc) := by
  change execTransferComplete ecc s = _
  simp only [execTransferComplete, ho, if_neg (Nat.not_lt.mpr hb)]

/-- An access of a permitted form becomes a request of its source's requester; before READY it only sets NOT_READY (R287, R288). -/
theorem ledgerWindow_permitted {src : Source} {w : Width} {addr id : Nat} {hi : Bool} (v : Word64) {s : State}
    (hf : windowForm w addr = some (id, hi)) :
    (s.ledger.ready = true →
      exec (.ledgerWindowRead src w addr) s = .next ((s.mapLedger fun l => l.lookup id).mapArb fun a =>
          a.issue (srcReq src) (.windowRead src w id hi) 1 false)
        ∧ exec (.ledgerWindowWrite src w addr v) s = .next (s.mapArb fun a =>
          a.issue (srcReq src) (.windowWrite src w id hi v) 1 false)) ∧
    (s.ledger.ready = false →
      exec (.ledgerWindowRead src w addr) s = .next { s with readData := 0 }.notReady
        ∧ exec (.ledgerWindowWrite src w addr v) s = .next s.notReady) := by
  change (_ → execLedgerWindowRead src w addr s = _ ∧ execLedgerWindowWrite src w addr v s = _) ∧
    (_ → execLedgerWindowRead src w addr s = _ ∧ execLedgerWindowWrite src w addr v s = _)
  constructor <;> intro hr <;> simp [execLedgerWindowRead, execLedgerWindowWrite, hf, hr]

/-- An access of any other form only sets WIDTH (R9, R288). -/
theorem ledgerWindow_refused {src : Source} {w : Width} {addr : Nat} (v : Word64) {s : State} (hf : windowForm w addr = none) :
    exec (.ledgerWindowRead src w addr) s = .next ({ s with readData := 0 }.errWidth src false w addr)
      ∧ exec (.ledgerWindowWrite src w addr v) s = .next (s.errWidth src true w addr) := by
  change execLedgerWindowRead src w addr s = _ ∧ execLedgerWindowWrite src w addr v s = _
  simp [execLedgerWindowRead, execLedgerWindowWrite, hf]

/-! ### What each kind of transfer does at its last beat -/

theorem lastBeat_windowWrite {s : State} {r : Req} {src : Source} {w : Width} {id : Nat} {hi : Bool} {v : Word64} (ecc : List Ecc)
    (hx : r.xfer = .windowWrite src w id hi v) (hr : idReserved id = false) (hc : idClass id ≠ 3) (hp : s.par.role ≠ .standby) :
    s.lastBeat r ecc = (s.mapLedger fun l =>
      ledgerPut l id (windowEntry w hi (memRead s.ledger.mem id) v s.cyc.num)).mapPar fun p => p.dirty id := by
  have hplain := writeEntry_plain (s := s) (req := srcReq src) (e := windowEntry w hi (s.entryOf id) v s.cyc.num) hr hc
  have hold : s.entryOf id = memRead s.ledger.mem id := by simp [State.entryOf, hc]
  rw [hold] at hplain
  simp [State.lastBeat, hx, State.windowWrite, hp, hold, hplain]

theorem lastBeat_windowRead {s : State} {r : Req} {src : Source} {w : Width} {id : Nat} {hi : Bool}
    (hx : r.xfer = .windowRead src w id hi) (hr : idReserved id = false) (hc : idClass id ≠ 3) (hb : id ∉ s.ledger.bad) :
    s.lastBeat r [] = { s with readData := windowValue w hi (memRead s.ledger.mem id) } := by
  simp [State.lastBeat, hx, readEntry_plain hr hc hb]

theorem lastBeat_lanePost {s : State} {r : Req} {n : Nat} {p : Post} {ps : List Post} (ecc : List Ecc)
    (hx : r.xfer = .lanePost n) (hq : (s.lane n).post = p :: ps) (hr : idReserved p.id = false) (hc : idClass p.id ≠ 3) :
    s.lastBeat r ecc = ((s.mapLedger fun l => ledgerPut l p.id (entry p.value p.status p.stamp)).mapPar fun q =>
      q.dirty p.id).mapLane n fun l => { l with post := ps } := by
  simp [State.lastBeat, hx, State.postWrite, hq, writeEntry_plain hr hc]

theorem lastBeat_laneRead {s : State} {r : Req} {n : Nat} {rd : LaneRead} (hx : r.xfer = .laneRead n) (hs : (s.lane n).stall = some rd)
    (hids : ∀ id ∈ rd.ids, (idReserved id = false ∧ idClass id ≠ 3) ∧ id ∉ s.ledger.bad) :
    s.lastBeat r [] = s.mapLane n fun l => { l with got := some (rd.ids.map fun id => memRead s.ledger.mem id) } := by
  simp [State.lastBeat, hx, hs, readEntries_plain hids]

/-- Settles O42: a permitted access is its request, and the four transfers are taken one by one at their last beat. -/
theorem ledgerWindow : Obligations.LedgerWindow := by
  unfold Obligations.LedgerWindow
  refine ⟨?_, ?_⟩
  · intro src w id hi v s _ hform addr
    obtain ⟨hready, hearly⟩ := ledgerWindow_permitted (src := src) v (s := s) (windowForm_permitted (id := id) hform)
    refine ⟨fun hr => ?_, fun hr => ?_, fun w' hw' => ?_⟩
    · obtain ⟨hread, hwrite⟩ := hready hr
      refine ⟨⟨_, hread, ?_⟩, hwrite⟩
      exact congrArg (fun l => (s.mapLedger fun _ => l).mapArb fun a => a.issue (srcReq src) (.windowRead src w id hi) 1 false)
        (lookup_frame s.ledger id)
    · exact hearly hr
    · exact ledgerWindow_refused v (windowForm_narrow hw')
  · intro s o ho hb hm plain arb
    refine ⟨?_, ?_, ?_, ?_⟩
    · intro src w id hi v hx ⟨hr, hc⟩ hp
      have he := windowEntry_eq w hi (memRead s.ledger.mem id) v s.cyc.num
      exact ⟨_, (transferComplete_lastBeat [] ho hb).trans (congrArg _ (lastBeat_windowWrite [] hx hr hc hp)), rfl,
        wrote_ledgerPut hm (congrArg (ledgerPut s.ledger id) he) rfl⟩
    · intro src w id hi hx ⟨hr, hc⟩ hbad
      refine ((transferComplete_lastBeat [] ho hb).trans (congrArg _ (lastBeat_windowRead hx hr hc hbad))).trans ?_
      cases w <;> cases hi <;> rfl
    · intro n p ps hx _ hq ⟨hr, hc⟩
      exact ⟨_, (transferComplete_lastBeat [] ho hb).trans (congrArg _ (lastBeat_lanePost [] hx hq hr hc)), rfl,
        wrote_ledgerPut hm rfl rfl⟩
    · intro n rd hx _ hs hids
      exact (transferComplete_lastBeat [] ho hb).trans (congrArg _ (lastBeat_laneRead hx hs hids))

end Sys2Proof.Laws
end

section
/-!
PROOFS. Setting, counting and capturing the calendar (R44 to R47).
-/
namespace Sys2Proof.Laws

open Sys2Proof Sys2Proof.Machine

/-- A write of TIM_CAP_CTRL with CAPTURE 0, by any source: the address is one of BAR0 and of a register that takes writes. -/
theorem registerWrite_capCtrl_clear (src : Source) {v : Word64} (s : State) (h : bit v 0 = false) :
    exec (.registerWrite src .w32 0x40020040 v) s = .next (s.mapTim fun t => { t with capDone := false }) := by
  change execRegisterWrite src .w32 0x40020040 v s = _
  have hbar : s.inBar 0x40020040 = true := by simp [State.inBar]
  have hplace : s.placeAt 0x40020040 = .block .tim 0x040 := by
    simp [State.placeAt, regBlock]
  have hbit : bit (v.setWidth 32) 0 = false := by
    simpa [bit] using h
  simp [execRegisterWrite, hbar, State.busWrite, hplace, State.regWrite, State.writeBlock, State.writeTim, hbit]

/-- A set is asked for with the last value written to TIM_CAL_SET_LO (R11, R45). -/
theorem calendarSet_vbak (src : Source) (hi : Word) {s : State} (h : s.tim.vbak = true) :
    exec (.calendarSet src hi) s = .next (s.mapTim fun t =>
      { t with calSet := some (BitVec.ofNat 48 ((s.loOf 0x40020038).toNat + field hi 15 0 * 2 ^ 32)) }) := by
  change Host.Outcome.next (s.calendarSet hi) = _
  simp only [State.calendarSet, h, if_true]
  rfl

/-- An edge takes the value that waits (R45). -/
theorem takeSet_some {t : Tim} {v : BitVec 48} (h : t.calSet = some v) :
    t.takeSet = { t with calSec := v, calSub := 0, calFrac := 0, carryDue := false, calSet := none, calOk := true } := by
  simp [Tim.takeSet, h]

/-- Settles O12: each command of the calendar by its own equation. -/
theorem calendarAndCapture : Obligations.CalendarAndCapture := by
  unfold Obligations.CalendarAndCapture
  refine ⟨fun s => ⟨fun src hi hv => calendarSet_vbak src hi hv, ?_, ?_, rfl, rfl⟩,
    fun s => ⟨fun _ => rfl, ?_, ?_, fun src v hv => registerWrite_capCtrl_clear src s hv⟩⟩
  · intro v hset
    change Host.Outcome.next (s.mapTim Tim.takeSet) = _
    rw [State.mapTim, takeSet_some hset]
  · intro hv hset
    change execCalendarSecond s = _
    simp [execCalendarSecond, hv, hset, State.mapTim, Tim.second]
  · intro hreq
    change execCaptureDone s = _
    simp [execCaptureDone, hreq, State.mapTim]
  · intro hreq
    change execCaptureDone s = _
    simp [execCaptureDone, hreq]

end Sys2Proof.Laws
end

section
/-!
PROOFS. A clearing point under a SLOT record of a station number that no station has (R286, R328).
-/
namespace Sys2Proof.Laws

open Sys2Proof Sys2Proof.Machine

/-- A loop none of whose steps changes the state leaves it. -/
theorem forRange_fixed {σ : Type} {f : Nat → σ → σ} {x : σ} : ∀ {n : Nat}, (∀ i < n, f i x = x) → forRange n f x = x := by
  intro n
  induction n with
  | zero => intro _; rfl
  | succ n ih =>
    intro h
    rw [forRange, ih fun i hi => h i (Nat.lt_succ_of_lt hi)]
    exact h n (Nat.lt_succ_self n)

/-- Where the return slots of every port have been judged, no return frame is missing. -/
theorem missReturns_judged {s : State} (c : Charter) (h : ∀ p < 32, (s.port p).judged = true) : s.missReturns c = s :=
  forRange_fixed fun p hp => if_pos (h p hp)

/-- Where no position holds a station, none leaves. -/
theorem leaveMissing_noStation {s : State} (h : ∀ p < 32, ∀ i < 16, ((s.port p).at (i + 1)).station = none) :
    s.leaveMissing = s :=
  forRange_fixed fun p hp => forRange_fixed fun i hi => by simp [State.leaveAbsent, h p hp i hi]

/-- A Charter whose one SLOT record names station number 1027. -/
def slotBeyondStations : Charter :=
  { derateWaive := false, test := false, pair := false, charterId := 1, digest := [], keySlot := 0, baseRate := 0, ratesUsed := 1
    ports := []
    slots := [{ station := 1027, port := 0, pos := 1, matchKind := 0, rejoin := 0, policy := 0, io := false, vendor := 0, model := 0,
                serial := 0 }]
    axes := [], chains := [], tasks := [], binds := [], layout := none, pins := [], inits := [], classes := [], windowLen := 4096
    urgentBeats := 64, pairRec := none, ageing := { permit := true, vcoreMax := 850, reservePs := 60, warnDays := 180 }, codes := []
    testAuth := none }

/-- A unit in full service before the clearing point of cycle 1024, no station on its ports and their return slots judged, with the
enable of GPIO 0 written and waiting. -/
def enableWaits : State :=
  let s := State.reset
  { s with
    cht := { s.cht with active := some slotBeyondStations, phase := .running }
    cyc := { s.cyc with service := 2, k := 1024, num := 1023, numValid := true, sampled := true }
    ledger := { s.ledger with ready := true }
    ports := List.replicate 32 { Port.reset with judged := true }
    io := { s.io with gpioEnW := 1 }
    par := { s.par with holds := true } }

/-- The clearing point publishes the station items before it releases the GPIO levels that wait. CUT_UI of station 1027 has the
identifier S.02.1027.002, which is S.03.003.002, that of the GPIO enables: they take its value 0 before they are released. -/
theorem clearingPoint_enableWaits : ∃ u, exec .clearingPoint enableWaits = .next u ∧ u.io.gpioEnR = 0 := by
  have hholds : enableWaits.par.holds = true := rfl
  have hmiss : enableWaits.missReturns slotBeyondStations = enableWaits := missReturns_judged _ (by decide)
  have hleave : enableWaits.leaveMissing = enableWaits := leaveMissing_noStation (by decide)
  refine ⟨enableWaits.clearing slotBeyondStations, rfl, ?_⟩
  simp only [State.clearing, hholds, if_true, hmiss, hleave]
  decide +kernel

/-- Refutes O17: the GPIO enables released are not those that waited where a SLOT record names a station number beyond 1,023, whose
items have the identifiers of class 0x03. `buildCharter` reads station numbers of nine bits, so no LOAD makes such a Charter; the
statement is about every Charter. -/
theorem not_deadlineAndClearingPoint : ¬ Obligations.DeadlineAndClearingPoint := by
  unfold Obligations.DeadlineAndClearingPoint
  rintro ⟨-, hclearing⟩
  obtain ⟨t, ht, -, -, -, -, -, -, -, -, henables, -⟩ :=
    hclearing enableWaits slotBeyondStations rfl (by decide) (by decide) rfl
  obtain ⟨u, hu, hzero⟩ := clearingPoint_enableWaits
  have htu : t = u := Host.Outcome.next.inj (ht.symm.trans hu)
  have hone : enableWaits.io.gpioEnW = 1 := rfl
  rw [htu, hzero, hone] at henables
  exact absurd henables (by decide)

end Sys2Proof.Laws
end

section
/-!
PROOFS. Release (R19, R404): what it changes of the device, in one equation.
-/
namespace Sys2Proof.Laws

open Sys2Proof Sys2Proof.Machine

/-! ### The Daybook (R424 to R426) -/

/-- Records put into the journal change the journal and the journalled epoch. -/
theorem dbkPut_frame (rs : List DbkRec) :
    ∀ d : Dbk, d.put rs = { d with journal := (d.put rs).journal, epoch := (d.put rs).epoch } := by
  induction rs with
  | nil => exact fun _ => rfl
  | cons r rs ih => exact fun d => ih _

/-- Records written change the journal, the journalled epoch, and the counts of entries, checkpoints and erasures. -/
theorem dbkWrite_frame (d : Dbk) (rs : List DbkRec) :
    d.write rs = { d with
      journal := (d.write rs).journal, epoch := (d.write rs).epoch, seq := (d.write rs).seq
      ckptNew := (d.write rs).ckptNew, ckptOld := (d.write rs).ckptOld
      erased := (d.write rs).erased, erases := (d.write rs).erases } := by
  simp only [Dbk.write, Dbk.eraseOld, Dbk.checkpoint]
  rw [dbkPut_frame rs d]
  split <;> rfl

@[simp] theorem dbkWrite_ready (d : Dbk) (rs : List DbkRec) : (d.write rs).ready = d.ready := by rw [dbkWrite_frame]

@[simp] theorem dbkWrite_region (d : Dbk) (rs : List DbkRec) : (d.write rs).region = d.region := by rw [dbkWrite_frame]

@[simp] theorem dbkWrite_vcore (d : Dbk) (rs : List DbkRec) : (d.write rs).vcore = d.vcore := by rw [dbkWrite_frame]

@[simp] theorem epochsIn_ready (d : Dbk) : d.epochsIn.ready = d.ready := by
  unfold Dbk.epochsIn
  split <;> simp

@[simp] theorem epochsIn_region (d : Dbk) : d.epochsIn.region = d.region := by
  unfold Dbk.epochsIn
  split <;> simp

@[simp] theorem epochsIn_vcore (d : Dbk) : d.epochsIn.vcore = d.vcore := by
  unfold Dbk.epochsIn
  split <;> simp

/-- Waiting EPOCH records reach the journal of a ready Daybook, and nothing else changes (R425). -/
theorem journalEpoch_eq (s : State) : s.journalEpoch = { s with dbk := s.dbk.epochsIn } := by
  unfold State.journalEpoch Dbk.epochsIn
  split <;> rfl

/-- The stamp of an entry is the calendar's seconds where the calendar is set (R424, R429). -/
theorem stamp_toNat (s : State) : s.stamp.toNat = s.stampNow := by
  unfold State.stamp State.stampNow
  split <;> rfl

/-- The region that the flash header gives has 256 to 1,024 sectors (R425). -/
theorem regionOf_sectors (v : Word64) : 256 ≤ field (regionOf v) 15 0 ∧ field (regionOf v) 15 0 ≤ 1024 := by
  simp only [field, regionOf, BitVec.toNat_ofNat]
  omega

/-! ### The first step of VCORE (R417, R418) -/

/-- Where the first step of the restore leads: 10 mV from 800 mV towards its goal. -/
def firstStep (goal : Nat) : Nat := if 800 < goal then min goal 810 else max goal 790

@[simp] theorem firstStep_there : firstStep 800 = 800 := rfl

/-- The VOLTAGE record of a step from 800 mV, M before and after as it was read last. -/
def firstStepRecord (s : State) (mv : Nat) : DbkRec :=
  { type := 4, stamp := s.stampNow, live := false
    content := [800, BitVec.ofNat 32 mv, BitVec.ofInt 32 s.age.margin, BitVec.ofInt 32 s.age.margin] }

/-- A step of the restore from 800 mV, of a setting that a VOUT_COMMAND takes. -/
theorem restoreTo_from800 {s : State} {mv : Nat} (hv : s.age.vcore = 800) (hlo : 700 ≤ mv) (hhi : mv ≤ 850) :
    s.restoreTo mv = { s with
      dbk := { s.dbk with pending := s.dbk.pending ++ [firstStepRecord s mv] }
      age := { s.age with vcore := mv }
      pmb := { s.pmb with vset := BitVec.ofNat 32 mv, verify := some mv } } := by
  have hcommand : s.voutCommand mv = { s with
      age := { s.age with vcore := mv }, pmb := { s.pmb with vset := BitVec.ofNat 32 mv, verify := some mv } } :=
    if_pos ⟨hlo, hhi⟩
  simp only [State.restoreTo, hcommand, State.dayAdd, State.mapDbk, Dbk.add, stamp_toNat, hv]
  rfl

/-- The restore begins at 800 mV: there it ends, or else it takes its first step. -/
theorem restoreStep_from800 {s : State} (hv : s.age.vcore = 800) :
    s.restoreStep = { s with
      dbk := { s.dbk with
        pending := if s.restoreGoal = 800 then s.dbk.pending
          else s.dbk.pending ++ [firstStepRecord s (firstStep s.restoreGoal)] }
      age := { s.age with
        vcore := firstStep s.restoreGoal, restored := s.age.restored || s.restoreGoal == 800 }
      pmb := if s.restoreGoal = 800 then s.pmb
        else { s.pmb with vset := BitVec.ofNat 32 (firstStep s.restoreGoal), verify := some (firstStep s.restoreGoal) } } := by
  have hmin : 750 ≤ s.restoreGoal := Nat.le_max_left _ _
  unfold State.restoreStep
  by_cases hthere : s.restoreGoal = 800
  · rw [if_pos (hv.trans hthere.symm), State.mapAge, hthere, firstStep_there, ← hv, if_pos rfl, if_pos rfl, beq_self_eq_true,
      Bool.or_true]
  · have hstep : (if 800 < s.restoreGoal then s.restoreTo (min s.restoreGoal 810) else s.restoreTo (max s.restoreGoal 790))
        = s.restoreTo (firstStep s.restoreGoal) := (apply_ite s.restoreTo _ _ _).symm
    have hlo : 700 ≤ firstStep s.restoreGoal := by unfold firstStep; split <;> omega
    have hhi : firstStep s.restoreGoal ≤ 850 := by unfold firstStep; split <;> omega
    simp only [hv, if_neg (Ne.symm hthere), hstep, restoreTo_from800 hv hlo hhi]
    simp [hthere]

/-! ### Release -/

/-- A derating asked for with TARGET 1 is no override of the planner (R34, R429). -/
theorem derateWrite_one (s : State) :
    s.derateWrite 1 = { s with clk := { s.clk with derate := 1, pending := some true } } := by
  have hkeeps : ¬ (s.age.planned && !bit (1 : Word) 0) = true := by simp [bit]
  exact if_neg hkeeps

/-- DBK_REGION after release: that of the flash header where none is known. -/
def regionAfter (s : State) : Word := if s.dbk.region = 0 then regionOf s.free else s.dbk.region

/-- The Daybook of a released device, its waiting EPOCH records journalled (R425). -/
def mountedDbk (s : State) : Dbk := ({ s.dbk with ready := true, region := regionAfter s } : Dbk).epochsIn

/-- A device with its flags of release, its application image in DRAM and its Daybook mounted, at 800 mV. -/
def mounted (s : State) : State :=
  { s with
    freeCount := s.freeCount + 1
    bst := { s.bst with released := true, evt := setBit s.bst.evt 1, svcRun := s.bst.fwOk, appRun := s.bst.fwOk }
    dram := if s.bst.fwOk then (s.dramPut 0x801000000 s.bst.image).dram else s.dram
    dbk := mountedDbk s
    age := { s.age with vcore := 800 } }

/-- The goal of the restore is that of the device before release. -/
theorem restoreGoal_mounted (s : State) : (mounted s).restoreGoal = s.restoreGoal := by
  have hvcore : (mountedDbk s).vcore = s.dbk.vcore := epochsIn_vcore _
  exact congrArg (fun v : Option Nat => max 750 (min s.ageing.vcoreMax (v.getD 750))) hvcore

/-- Release mounts the Daybook, begins the restore of VCORE, and asks again for a recorded derating. -/
theorem release_mounted (s : State) :
    s.release = if s.dbk.derated then
        ((mounted s).restoreStep.mapAge fun a => { a with planned := true }).derateWrite 1
      else (mounted s).restoreStep := by
  simp only [State.release, journalEpoch_eq]
  cases hfw : s.bst.fwOk <;> simp [mounted, hfw, mountedDbk, regionAfter, State.drawn, State.dramPut]

/-- What release changes: the flags of self-test, the application image in DRAM, the Daybook, the first step of VCORE, and a
derating that the Daybook records (R19, R34, R404, R418, R425). -/
theorem release_eq (s : State) :
    s.release = { s with
      freeCount := s.freeCount + 1
      bst := { s.bst with released := true, evt := setBit s.bst.evt 1, svcRun := s.bst.fwOk, appRun := s.bst.fwOk }
      dram := if s.bst.fwOk then (s.dramPut 0x801000000 s.bst.image).dram else s.dram
      dbk := { mountedDbk s with
        pending := if s.restoreGoal = 800 then (mountedDbk s).pending
          else (mountedDbk s).pending ++ [firstStepRecord s (firstStep s.restoreGoal)] }
      age := { s.age with
        vcore := firstStep s.restoreGoal, restored := s.age.restored || s.restoreGoal == 800
        planned := s.age.planned || s.dbk.derated }
      pmb := if s.restoreGoal = 800 then s.pmb
        else { s.pmb with vset := BitVec.ofNat 32 (firstStep s.restoreGoal), verify := some (firstStep s.restoreGoal) }
      clk := if s.dbk.derated then { s.clk with derate := 1, pending := some true } else s.clk } := by
  rw [release_mounted, restoreStep_from800 (s := mounted s) rfl, restoreGoal_mounted]
  cases hd : s.dbk.derated
  · rw [Bool.or_false]
    rfl
  · rw [Bool.or_true, if_pos rfl, if_pos rfl, derateWrite_one]
    rfl

/-- A device of PASS whose keys are blocked is released without them. -/
theorem releaseLocked_releases {s : State} (hv : s.bst.verdict = .pass) (hl : s.srm.lockout = true) (hr : s.bst.released = false) :
    s.releaseLocked = s.release := if_pos ⟨hv, hl, hr⟩

/-- No device without PASS, with its keys free or released before is released for a block of its keys. -/
theorem releaseLocked_stays {s : State} (h : s.bst.verdict ≠ .pass ∨ s.srm.lockout = false ∨ s.bst.released = true) :
    s.releaseLocked = s :=
  if_neg fun ⟨hv, hl, hr⟩ => by simp [hv, hl, hr] at h

end Sys2Proof.Laws
end

section
/-!
PROOFS. Key derivation and JTAG (R401, R402, R404, R414).
-/
namespace Sys2Proof.Laws

open Sys2Proof Sys2Proof.Machine

/-- The Strongroom once a scan chain has been reached. -/
def scanLocked (r : Srm) : Srm := { r with keysReady := false, lockout := true, keyRam := none }

/-- A scan chain reached once, over JTAG that is open. -/
theorem scan_open {i : JtagInstr} (hi : i = .scan ∨ i = .boundary) {s : State} (ho : s.srm.jtagOpen = true)
    (hl : s.srm.lockout = false) : exec (.jtagInstruction i) s = .next (s.mapSrm scanLocked).releaseLocked := by
  have hopen : (s.srm.jtagOpen && !s.srm.lockout) = true := by rw [ho, hl]; rfl
  obtain rfl | rfl := hi <;> exact if_pos hopen

/-- A scan is BYPASS over JTAG that is closed, and once the keys are blocked. -/
theorem scan_bypassed {i : JtagInstr} (hi : i = .scan ∨ i = .boundary) {s : State}
    (h : s.srm.jtagOpen = false ∨ s.srm.lockout = true) : exec (.jtagInstruction i) s = .next s := by
  have hclosed : ¬ (s.srm.jtagOpen && !s.srm.lockout) = true := by
    obtain h | h := h <;> simp [h]
  obtain rfl | rfl := hi <;> exact if_neg hclosed

/-- The device with its working keys, before release. -/
def keyed (s : State) : State :=
  (s.mapSrm fun r => { r with keysReady := true, keyRam := some s.freeCount }).drawn 1

/-- Key derivation after PASS ends in release. -/
theorem keysReady_releases {s : State} (hv : s.bst.verdict = .pass) (hl : s.srm.lockout = false) (hr : s.bst.released = false) :
    exec .keysReady s = .next (keyed s).release := if_pos ⟨hv, hl, hr⟩

/-- Without PASS, with the keys blocked or after release no key derivation ends. -/
theorem keysReady_ignored {s : State} (h : s.bst.verdict ≠ .pass ∨ s.srm.lockout = true ∨ s.bst.released = true) :
    exec .keysReady s = .next s :=
  if_neg fun ⟨hv, hl, hr⟩ => by simp [hv, hl, hr] at h

/-- The region of a released device: the one known, or one of 256 to 1,024 sectors (R425). -/
theorem region_release (s : State) : s.release.dbk.region = regionAfter s := by
  rw [release_eq]
  exact epochsIn_region _

/-- Settles O54: release by its one equation, and each JTAG instruction by its own. -/
theorem keysAndJtag : Obligations.KeysAndJtag := by
  unfold Obligations.KeysAndJtag
  intro s goal mv locked margin volt
  refine ⟨?_, keysReady_ignored, rfl, rfl, fun i hi => ⟨scan_bypassed hi, ?_, ?_⟩⟩
  · intro hv hl hr
    refine ⟨_, keysReady_releases hv hl hr, ?_⟩
    have hregion : (keyed s).release.dbk.region = regionAfter (keyed s) := region_release _
    refine ⟨fun hk => hregion.trans (if_neg hk), fun hk => ?_, fun hd => ?_, ?_⟩
    · rw [hregion.trans (if_pos hk)]
      exact regionOf_sectors _
    · rw [release_eq]
      exact congrArg Clk.pending (if_pos hd)
    · rw [hregion]
      exact release_eq _
  · intro ho hl hstays
    exact (scan_open hi ho hl).trans (congrArg _ (releaseLocked_stays (hstays.imp_right .inr)))
  · intro ho hl hv hr
    refine ⟨_, (scan_open hi ho hl).trans (congrArg _ (releaseLocked_releases hv rfl hr)), ?_⟩
    rw [release_eq]
    exact ⟨rfl, rfl, epochsIn_ready _, rfl, rfl, rfl⟩

end Sys2Proof.Laws
end

section
/-!
PROOFS. The end of a test wave: its verdict, and what follows it (R399 to R404, R444).
-/
namespace Sys2Proof.Laws

open Sys2Proof Sys2Proof.Machine

/-! ### Verdicts -/

theorem worse_eq_fail (a b : Verdict) : a.worse b = .fail ↔ a = .fail ∨ b = .fail := by
  cases a <;> cases b <;> decide

/-- The worse of two verdicts given is PASS where both are. -/
theorem worse_eq_pass {a b : Verdict} (ha : a ≠ .none) (hb : b ≠ .none) : a.worse b = .pass ↔ a = .pass ∧ b = .pass := by
  revert ha hb
  cases a <;> cases b <;> decide

theorem worse_ne_none (a b : Verdict) : a.worse b ≠ .none := by
  cases a <;> cases b <;> decide

theorem foldl_worse_eq_fail (l : List Verdict) :
    ∀ v : Verdict, l.foldl Verdict.worse v = .fail ↔ v = .fail ∨ Verdict.fail ∈ l := by
  induction l with
  | nil => simp
  | cons a l ih =>
    intro v
    rw [List.foldl_cons, ih, worse_eq_fail, List.mem_cons, or_assoc, eq_comm (a := a)]

theorem foldl_worse_eq_pass (l : List Verdict) (hl : ∀ a ∈ l, a ≠ .none) :
    ∀ v : Verdict, v ≠ .none → (l.foldl Verdict.worse v = .pass ↔ v = .pass ∧ ∀ a ∈ l, a = .pass) := by
  induction l with
  | nil => simp
  | cons a l ih =>
    intro v hv
    obtain ⟨ha, hl⟩ := List.forall_mem_cons.mp hl
    rw [List.foldl_cons, ih hl _ (worse_ne_none v a), worse_eq_pass hv ha, List.forall_mem_cons, and_assoc]

/-- The Assay of a segment is PASS where it is done with the count and the signature of the ROM (R403). -/
theorem segAssay_eq_pass (e : Word × Word64) (r : SegResult) :
    segAssay e r = .pass ↔ (r.done = true ∧ r.count = e.1) ∧ r.sig = e.2 := by
  by_cases hd : r.done = true ∧ r.count = e.1
  · by_cases hs : r.sig = e.2 <;> simp [segAssay, hd, hs]
  · simp [segAssay, hd]

/-- The Assay of a segment is FAIL where it is done with the count of the ROM and another signature (R403). -/
theorem segAssay_eq_fail (e : Word × Word64) (r : SegResult) :
    segAssay e r = .fail ↔ (r.done = true ∧ r.count = e.1) ∧ r.sig ≠ e.2 := by
  by_cases hd : r.done = true ∧ r.count = e.1
  · by_cases hs : r.sig = e.2 <;> simp [segAssay, hd, hs]
  · simp [segAssay, hd]

theorem segAssay_ne_none (e : Word × Word64) (r : SegResult) : segAssay e r ≠ .none := by
  unfold segAssay
  split
  · split <;> decide
  · decide

theorem segAssays_ne_none (rom : List (Word × Word64)) (segs : List SegResult) : ∀ a ∈ segAssays rom segs, a ≠ .none := by
  intro a ha
  obtain ⟨e, -, rfl⟩ := List.mem_map.mp ha
  exact segAssay_ne_none _ _

/-- The Assay in place i is that of segment i against its entry in the ROM. -/
theorem getD_segAssays (rom : List (Word × Word64)) {segs : List SegResult} {i : Nat} (d : SegResult) (h : i < segs.length) :
    (segAssays rom segs).getD i .none = segAssay (rom.getD i (0, 0)) (segs.getD i d) := by
  simp [segAssays, indexed, List.getD_eq_getElem?_getD, h]

@[simp] theorem segsRun_length (n : Nat) (segs : List SegResult) (m : WaveMeas) : (segsRun n segs m).length = segs.length := by
  unfold segsRun
  split <;> simp

/-- The scan chains of a wave are enabled, but in wave 0 where the key RAM is not zero. -/
theorem scansEnabled {n : Nat} {m : WaveMeas} (h : ¬ (n = 0 ∧ m.keyRamZero = false)) : (n != 0 || m.keyRamZero) = true := by
  rw [Bool.or_eq_true, bne_iff_ne, ← Decidable.imp_iff_not_or]
  exact fun hn => (Bool.not_eq_false _).mp fun hz => h ⟨hn, hz⟩

/-- A segment as it ran: none of wave 0 is done where the key RAM is not zero (R401). -/
theorem getD_segsRun (n : Nat) {segs : List SegResult} (m : WaveMeas) {i : Nat} (d : SegResult) (h : i < segs.length) :
    (segsRun n segs m).getD i d = { segs.getD i d with done := (segs.getD i d).done && (n != 0 || m.keyRamZero) } := by
  by_cases hz : n = 0 ∧ m.keyRamZero = false
  · simp [segsRun, hz, List.getD_eq_getElem?_getD, h]
  · rw [segsRun, if_neg hz, scansEnabled hz, Bool.and_true]

/-- A verdict of PASS: the checks, and every segment. -/
theorem waveVerdict_eq_pass (n : Nat) {assays : List Verdict} (m : WaveMeas) (h : ∀ a ∈ assays, a ≠ .none) :
    waveVerdict n assays m = .pass ↔ checksOk m n = true ∧ ∀ a ∈ assays, a = .pass := by
  cases hc : checksOk m n <;> simp [waveVerdict, hc, foldl_worse_eq_pass assays h]

/-- A verdict of FAIL: a check, or a segment. -/
theorem waveVerdict_eq_fail (n : Nat) (assays : List Verdict) (m : WaveMeas) :
    waveVerdict n assays m = .fail ↔ checksOk m n = false ∨ Verdict.fail ∈ assays := by
  cases hc : checksOk m n <;> simp [waveVerdict, hc, foldl_worse_eq_fail]

/-! ### What follows a verdict -/

/-- What a device does on the verdict v of wave n, once it has kept what the wave showed. -/
def verdictFollows (u : State) (n : Nat) (v : Verdict) (m : WaveMeas) : State :=
  if v ≠ .pass then (if n ≤ 1 then u.mapBst fun b => { b with rsvReason := 2 } else u).testEnds v
  else if n = 1 then
    u.mapBst fun b => { b with wave := 2, linkRun := b.fwOk, listening := true, heard := false, holdSeen := true }
  else if 5 ≤ n then { u with dramMib := m.dram0 + m.dram1 }.testEnds .pass
  else u.mapBst fun b => { b with wave := n + 1 }

/-- The verdict of the wave in hand. -/
def verdictInHand (s : State) (segs : List SegResult) (m : WaveMeas) : Verdict :=
  waveVerdict s.bst.wave (segAssays (s.bst.rom.getD s.bst.wave []) (segsRun s.bst.wave segs m)) m

/-- ZEROISED cleared where the key RAM of wave 0 is not zero (R401). -/
theorem clearZeroised_eq (s : State) (n : Nat) (m : WaveMeas) :
    (if n = 0 ∧ m.keyRamZero = false then s.mapSrm fun r => { r with zeroised := false } else s)
      = { s with srm := { s.srm with zeroised := s.srm.zeroised && (n != 0 || m.keyRamZero) } } := by
  by_cases hz : n = 0 ∧ m.keyRamZero = false
  · simp [hz, State.mapSrm]
  · rw [if_neg hz, scansEnabled hz, Bool.and_true]

/-- A place of a list put is a place set. -/
theorem putAt_eq_set {α : Type} (v : α) : ∀ (l : List α) (i : Nat), putAt l i v = l.set i v
  | [], i => by cases i <;> rfl
  | _ :: _, 0 => rfl
  | a :: l, i + 1 => congrArg (a :: ·) (putAt_eq_set v l i)

/-- A wave in hand keeps what it showed, and its verdict decides. -/
theorem waveEnds_running {s : State} (segs : List SegResult) (m : WaveMeas) (h : s.bst.running = true) :
    s.waveEnds segs m = verdictFollows (s.waved s.bst.wave segs m) s.bst.wave (verdictInHand s segs m) m := by
  simp only [State.waveEnds, h, clearZeroised_eq, putAt_eq_set]
  rfl

/-- Self-test ends with the ASSAY record of its verdict (R403, R404). -/
theorem testEnds_eq (s : State) (v : Verdict) :
    s.testEnds v = State.releaseLocked { s with
      bst := { s.bst with running := false, verdict := v, evt := if v = .pass then s.bst.evt else setBit s.bst.evt 2 }
      dbk := s.dbk.write [s.assayOf v] } := by
  simp only [State.testEnds, State.dayAssay, stamp_toNat]
  rfl

/-- Any verdict but PASS ends self-test with it, the device unreleased. -/
theorem verdictFollows_notPass (u : State) (n : Nat) {v : Verdict} (m : WaveMeas) (hv : v ≠ .pass) :
    verdictFollows u n v m = { u with
      bst := { u.bst with
        running := false, verdict := v, evt := setBit u.bst.evt 2, rsvReason := if n ≤ 1 then 2 else u.bst.rsvReason }
      dbk := u.dbk.write [u.assayOf v] } := by
  rw [verdictFollows, if_pos hv, testEnds_eq, releaseLocked_stays (.inl hv), if_neg hv]
  split <;> rfl

/-- PASS after waves 0, 2, 3 and 4 goes on to the next wave. -/
theorem verdictFollows_next (u : State) {n : Nat} (m : WaveMeas) (hn : n = 0 ∨ n = 2 ∨ n = 3 ∨ n = 4) :
    verdictFollows u n .pass m = { u with bst := { u.bst with wave := n + 1 } } := by
  obtain rfl | rfl | rfl | rfl := hn <;> rfl

/-- PASS after wave 1 starts the link engines and begins the listen (R19, R404 to R406). -/
theorem verdictFollows_listen (u : State) (m : WaveMeas) :
    verdictFollows u 1 .pass m = { u with bst := { u.bst with
      wave := 2, linkRun := u.bst.fwOk, listening := true, heard := false, holdSeen := true } } := rfl

/-- A device whose Assay is PASS after wave 5, with the DRAM found and the Assay journalled. -/
def assayPassed (u : State) (m : WaveMeas) : State :=
  { u with
    dramMib := m.dram0 + m.dram1, bst := { u.bst with running := false, verdict := .pass }
    dbk := u.dbk.write [u.assayOf .pass] }

/-- PASS after wave 5 is the device Assay; it releases a device whose keys are blocked. -/
theorem verdictFollows_last (u : State) (m : WaveMeas) : verdictFollows u 5 .pass m = (assayPassed u m).releaseLocked :=
  testEnds_eq _ _

/-- No wave in hand: nothing ends. -/
theorem waveEnds_idle {s : State} (segs : List SegResult) (m : WaveMeas) (h : s.bst.running = false) : s.waveEnds segs m = s :=
  if_pos (by rw [h]; rfl)

/-- Both ends of a wave are judged alike. -/
theorem exec_waveEnds {c : Instr} {segs : List SegResult} {m : WaveMeas} (hc : c ∈ [Instr.waveEnd segs m, .waveTimeLimit segs m])
    (s : State) : exec c s = .next (s.waveEnds segs m) := by
  rcases List.mem_cons.mp hc with rfl | hc
  · rfl
  · cases List.mem_singleton.mp hc
    rfl

/-- Settles O53: the state that the wave leaves, and each verdict's consequence by its own equation. -/
theorem wavesEnd : Obligations.WavesEnd := by
  unfold Obligations.WavesEnd
  intro segs m s c hc n rom assays v u
  have hends : s.bst.running = true → exec c s = .next (verdictFollows u n v m) := fun hrun =>
    (exec_waveEnds hc s).trans (congrArg _ (waveEnds_running segs m hrun))
  refine ⟨fun hidle => (exec_waveEnds hc s).trans (congrArg _ (waveEnds_idle segs m hidle)), fun hrun _ => ⟨?_, ?_, ?_, ?_, ?_⟩,
    waveVerdict_eq_pass n m (segAssays_ne_none _ _), waveVerdict_eq_fail n assays m, ?_⟩
  · intro hv hn
    rw [hends hrun, hv, verdictFollows_next u m hn]
  · intro hv hn
    rw [hends hrun, hv, hn, verdictFollows_listen]
    rfl
  · intro hv hn hstays
    rw [hends hrun, hv, hn, verdictFollows_last, releaseLocked_stays (s := assayPassed u m) (.inr hstays)]
    rfl
  · intro hv hn hl hr
    refine ⟨_, hends hrun, ?_⟩
    rw [hv, hn, verdictFollows_last, releaseLocked_releases (s := assayPassed u m) rfl hl hr, release_eq]
    exact ⟨rfl, rfl, rfl, epochsIn_ready _, rfl, rfl, rfl⟩
  · intro hv
    rw [hends hrun, verdictFollows_notPass u n m hv]
    rfl
  · intro i hi r e done
    have hassay : assays.getD i .none = segAssay e { r with done := r.done && (n != 0 || m.keyRamZero) } :=
      (getD_segAssays rom _ (by rwa [segsRun_length])).trans (congrArg _ (getD_segsRun n m _ hi))
    have hdone : ((r.done && (n != 0 || m.keyRamZero)) = true ∧ r.count = e.1) ↔ done := by
      simp only [done, Bool.and_eq_true, Bool.or_eq_true, bne_iff_ne, ne_eq, ← Decidable.imp_iff_not_or, and_right_comm, and_assoc]
    rw [hassay, segAssay_eq_pass, segAssay_eq_fail]
    exact ⟨and_congr_left' hdone, and_congr_left' hdone⟩

end Sys2Proof.Laws
end

section
/-!
PROOFS. What shared operations leave: a loop, an event raised, a role entered, a Warrant claimed, and a lane that leaves its run.
-/
namespace Sys2Proof.Laws

open Sys2Proof Sys2Proof.Machine

/-- A loop leaves every reading of the state that its steps leave. -/
theorem forEach_leaves {α σ β : Type} {v : σ → β} {f : α → σ → σ} (hf : ∀ a x, v (f a x) = v x) (l : List α) (x : σ) :
    v (forEach l f x) = v x :=
  forEach_keeps (P := fun y => v y = v x) (fun a _ y hy => (hf a y).trans hy) x rfl

/-! ### Roles and the Warrant (R365, R369) -/

/-- An event raised is put behind those raised before, or dropped (R368). -/
theorem raise_frame (s : State) (kind index k : Nat) :
    s.raise kind index k = { s with teller := { s.teller with raised := (s.raise kind index k).teller.raised } } := by
  unfold State.raise
  split <;> rfl

/-- A role entered is that of the pair manager; no change of role touches the Warrant or the LEASE. -/
theorem setRole_frame (s : State) (r : Role) :
    s.setRole r = { s with
      par := { s.par with
        role := r, seekSince := (s.setRole r).par.seekSince, gridSet := (s.setRole r).par.gridSet
        sync := (s.setRole r).par.sync, timeLocked := (s.setRole r).par.timeLocked }
      tim := (s.setRole r).tim, teller := (s.setRole r).teller } := by
  unfold State.setRole
  split
  next h => rw [← h]
  next =>
    dsimp only
    split
    · rw [raise_frame]; rfl
    · rfl

@[simp] theorem setRole_cht (s : State) (r : Role) : (s.setRole r).cht = s.cht := by rw [setRole_frame]

@[simp] theorem setRole_ledger (s : State) (r : Role) : (s.setRole r).ledger = s.ledger := by rw [setRole_frame]

/-- The Warrant of the epoch claimed is held, and the epoch journalled (R369, R425). -/
theorem takeWarrant_eq (s : State) : s.takeWarrant = { s with par := s.par.takeWarrant, dbk := s.dbk.epochsIn } := by
  rw [State.takeWarrant, journalEpoch_eq, State.mapPar]

/-- A claim is of the pair manager and the Daybook alone (R369, R425). -/
theorem claim_takeWarrant_eq (s : State) :
    s.claimEpoch.takeWarrant = { s with par := s.claimEpoch.par.takeWarrant, dbk := s.claimEpoch.dbk.epochsIn } := by
  rw [takeWarrant_eq]
  rfl

/-- A lane leaves what it ran: the lane, the Teller and the arbiter change (R272). -/
theorem endRun_frame (s : State) (n : Nat) :
    s.endRun n = { s with lanes := (s.endRun n).lanes, teller := (s.endRun n).teller, arb := (s.endRun n).arb } := by
  unfold State.endRun
  split <;> rfl

theorem dropRuns_frame (s : State) :
    s.dropRuns = { s with lanes := s.dropRuns.lanes, teller := s.dropRuns.teller, arb := s.dropRuns.arb } :=
  forRange_keeps (P := fun t : State => t = { s with lanes := t.lanes, teller := t.teller, arb := t.arb })
    (fun n t ht => by rw [endRun_frame, ht]) 16 s rfl

@[simp] theorem stepDown_cht (s : State) : s.stepDown.cht = s.cht := by
  rw [State.stepDown, dropRuns_frame]
  simp only [State.mapPar_cht, State.mapTeller_cht]

@[simp] theorem stepDown_ledger (s : State) : s.stepDown.ledger = s.ledger := by
  rw [State.stepDown, dropRuns_frame]
  simp only [State.mapPar_ledger, State.mapTeller_ledger]

/-- A review of the role changes neither the Charter block nor the Ledger. -/
theorem reviewRole_cht_ledger (s : State) : s.reviewRole.cht = s.cht ∧ s.reviewRole.ledger = s.ledger := by
  unfold State.reviewRole
  dsimp only
  repeat' split
  all_goals simp

/-- Reduced service runs where CYC_STAT.SERVICE is 1. -/
theorem reduced_iff (s : State) : s.reduced = true ↔ s.cyc.service = 1 := beq_iff_eq

end Sys2Proof.Laws
end

section
/-!
PROOFS. START of a staged Charter (R35, R87, R287, R290, R365, R409, R411).
-/
namespace Sys2Proof.Laws

open Sys2Proof Sys2Proof.Machine

/-! ### What START leaves of the Charter block, the Ledger and the pair manager -/

/-- The Charter block but its page writes and the stations that it waits for, the Ledger, and the pair manager but the page lines
for the next Escrow: what the entry of a Charter into force leaves. -/
def startParts (s : State) : Cht × Ledger × Par :=
  ({ s.cht with pageWrites := [], keptWait := [] }, s.ledger, { s.par with dirtyLines := [] })

@[simp] theorem startParts_mapAxis (s : State) (a : Nat) (f : Axis → Axis) : startParts (s.mapAxis a f) = startParts s := rfl
@[simp] theorem startParts_mapPort (s : State) (p : Nat) (f : Port → Port) : startParts (s.mapPort p f) = startParts s := rfl
@[simp] theorem startParts_mapStation (s : State) (n : Nat) (f : Station → Station) :
    startParts (s.mapStation n f) = startParts s := rfl
@[simp] theorem startParts_mapTeller (s : State) (f : Teller → Teller) : startParts (s.mapTeller f) = startParts s := rfl
@[simp] theorem startParts_mapIo (s : State) (f : Local → Local) : startParts (s.mapIo f) = startParts s := rfl
@[simp] theorem startParts_mapDbk (s : State) (f : Dbk → Dbk) : startParts (s.mapDbk f) = startParts s := rfl

@[simp] theorem startParts_dropRuns (s : State) : startParts s.dropRuns = startParts s := by
  rw [dropRuns_frame]
  simp only [startParts]

/-- The device writes a page: the lines that change go into the Escrow. -/
@[simp] theorem startParts_putPage (s : State) (a off : Nat) (ws : List Word) : startParts (s.putPage a off ws) = startParts s := by
  simp only [State.putPage, Par.dirtyPage]
  unfold startParts State.mapPar State.setPageWords
  dsimp only
  split <;> rfl

@[simp] theorem startParts_freshAxis (s : State) (c : Charter) (a : Nat) : startParts (s.freshAxis c a) = startParts s := by
  have hpage : startParts (s.freshPage c a) = startParts s := startParts_putPage ..
  simp only [State.freshAxis, State.mapFb]
  repeat' split
  all_goals simp only [startParts_mapAxis, startParts_mapIo, hpage]

@[simp] theorem startParts_reviewRecord (s : State) (r : AxisRec) : startParts (s.reviewRecord r) = startParts s := by
  unfold State.reviewRecord State.closeRecord
  split <;> simp

@[simp] theorem startParts_enterAxes (s : State) (c : Charter) : startParts (s.enterAxes c) = startParts s := by
  simp only [State.enterAxes]
  rw [forEach_leaves (v := startParts) fun r t => startParts_reviewRecord t r, forEach_leaves (v := startParts)]
  intro r t
  split
  · split <;> simp
  · simp

@[simp] theorem startParts_applyPageWrites (s : State) : startParts s.applyPageWrites = startParts s :=
  forEach_leaves (v := startParts) (fun _ t => startParts_putPage t _ _ _) s.cht.pageWrites.reverse s

@[simp] theorem startParts_setMedia (s : State) (c : Charter) : startParts (s.setMedia c) = startParts s := by
  simp only [State.setMedia]
  split <;> rfl

/-- The tables and the pages of a Charter enter force (R87, R146, R259). -/
theorem startParts_enterCharter (s : State) (c : Charter) : startParts (s.enterCharter c) = startParts s := by
  simp [State.enterCharter, State.enterTeller]

theorem startParts_sendConfig (s : State) (c : Charter) (p n num effective : Nat) :
    startParts (s.sendConfig c p n num effective) = startParts s := by
  simp [State.sendConfig, State.sendDown, State.mapPos]

theorem startParts_releaseToFound (s : State) (p n : Nat) : startParts (s.releaseToFound p n) = startParts s := by
  simp only [State.releaseToFound, State.sendRelease, State.sendCell, State.mapPos]
  split <;> simp

/-- Stations are told, and the kept ones awaited (R409). -/
theorem startParts_startStations (s : State) (c : Charter) : startParts (s.startStations c) = startParts s := by
  have htold : ∀ (e : Nat × Nat × Position) (t : State), startParts (if e.2.2.st = .absent ∨ e.2.2.st = .isolated then t
      else if t.keeps c e.1 e.2.1 e.2.2 then t.sendConfig c e.1 e.2.1 (e.2.2.station.getD 0) 0
      else t.releaseToFound e.1 e.2.1) = startParts t := by
    intro e t
    split
    · rfl
    · split
      · exact startParts_sendConfig ..
      · exact startParts_releaseToFound ..
  exact forEach_leaves htold s.everyPos s

/-! ### START -/

/-- The device as START first changes it: the staged Charter active, its code blocks placed, the Ledger at its base being cleared. -/
def chartered (s : State) (c : Charter) : State :=
  { s with
    cht := { s.cht with
      active := some c, staged := none, stage := .empty, activeBank := false, activeKey := c.keySlot
      activeSafe := s.cht.stagedSafe, placed := placeAll 0 c.codes, started := true }
    code := writeCode [] c (placeAll 0 c.codes)
    ledger := s.ledger.start c
    arb := { s.arb with pendingCls := some c.arbClasses } }

/-- Then the holding block is written, the RWS registers come into force and the unit takes its role. -/
def enacted (s : State) (c : Charter) : State := ((chartered s c).writeHoldInit c).forceRws.startRole c

/-- The RWS registers that come into force are those of the axes and of the local ports (R258). -/
theorem forceRws_frame (s : State) : s.forceRws = { s with axes := s.forceRws.axes, io := s.forceRws.io } :=
  forRange_keeps (P := fun t : State => t = { s with axes := t.axes, io := t.io })
    (fun n t ht => by rw [ht]; rfl) 16 { s with axes := s.axes.map Axis.forceRws } rfl

/-- START gives the unit its role, for which a unit without a Warrant may claim one (R365, R370): the Charter block and the Ledger stand. -/
theorem startRole_cht_ledger (s : State) (c : Charter) :
    (s.startRole c).cht = s.cht ∧ (s.startRole c).ledger = s.ledger := by
  simp only [State.startRole]
  split
  · simp
  · split
    · simp
    · simp [claim_takeWarrant_eq]

/-- Without PAIR the unit is SINGLE and holds the Warrant (R365). -/
theorem startRole_single {s : State} {c : Charter} (h : c.pair = false) :
    (s.startRole c).par.role = .single ∧ (s.startRole c).par.holds = true ∧ (s.startRole c).par.lease = 8 := by
  have hholds : (if s.par.holds then s else s.claimEpoch.takeWarrant).par.holds = true := by
    split
    · assumption
    · rw [claim_takeWarrant_eq]; rfl
  simp only [State.startRole, h, Bool.false_eq_true, if_false]
  rw [setRole_frame]
  exact ⟨rfl, hholds, rfl⟩

theorem enacted_cht (s : State) (c : Charter) : (enacted s c).cht = (chartered s c).cht := by
  refine (startRole_cht_ledger _ c).1.trans ?_
  rw [forceRws_frame]
  rfl

theorem enacted_ledger (s : State) (c : Charter) : (enacted s c).ledger = s.ledger.start c := by
  refine (startRole_cht_ledger _ c).2.trans ?_
  rw [forceRws_frame]
  rfl

/-- The role of a unit without PAIR does not hang on links (R365). -/
theorem reviewRole_single {s : State} {c : Charter} (ha : s.cht.active = some c) (hp : c.pair = false) : s.reviewRole = s := by
  simp [State.reviewRole, ha, hp]

/-- What START has made of the Charter block, the Ledger and the role (R87, R287, R290, R365, R409, R411). -/
def StartedWith (s : State) (c : Charter) (t : State) : Prop :=
  t.cht.active = some c ∧ t.cht.staged = none ∧ t.cht.stage = .empty ∧ t.cht.started = true
    ∧ t.cht.activeKey = c.keySlot ∧ t.cht.activeSafe = s.cht.stagedSafe ∧ t.cht.evt = s.cht.evt
    ∧ t.ledger.ready = false ∧ t.ledger.clearing = true ∧ t.ledger.lines = []
    ∧ t.ledger.base = BitVec.ofNat 64 (c.layout.getD 0x810000000)
    ∧ (s.cyc.service = 1 → t.cht.phase = .waitTs ∧ t.cht.tS = (s.tim.now / 250000 + 256) * 250000)
    ∧ (s.cyc.service ≠ 1 → t.cht.phase = .clearing)
    ∧ (c.pair = false → t.par.role = .single ∧ t.par.holds = true ∧ t.par.lease = 8)

/-- The phase and t_S of the start set. -/
def starting (u : State) (ph : StartPhase) (ts : Nat) : State := u.mapCht fun t => { t with phase := ph, tS := ts }

/-- A state that has these parts of `enacted` is as START makes it, once the start has its phase and the role is reviewed. -/
theorem startedWith_of_parts {s u : State} {c : Charter} (hu : startParts u = startParts (enacted s c)) {ph : StartPhase} {ts : Nat}
    (hwait : s.cyc.service = 1 → ph = .waitTs ∧ ts = (s.tim.now / 250000 + 256) * 250000)
    (hclear : s.cyc.service ≠ 1 → ph = .clearing) : StartedWith s c (starting u ph ts).reviewRole := by
  obtain ⟨hcht, hrest⟩ := Prod.mk.inj hu
  obtain ⟨hledger, hpar⟩ := Prod.mk.inj hrest
  rw [enacted_cht] at hcht
  rw [enacted_ledger] at hledger
  have hactive : u.cht.active = some c := congrArg Cht.active hcht
  obtain ⟨hc, hl⟩ := reviewRole_cht_ledger (starting u ph ts)
  have hl' : (starting u ph ts).reviewRole.ledger = s.ledger.start c := hl.trans hledger
  unfold StartedWith
  rw [hc, hl']
  refine ⟨hactive, congrArg Cht.staged hcht, congrArg Cht.stage hcht, congrArg Cht.started hcht, congrArg Cht.activeKey hcht,
    congrArg Cht.activeSafe hcht, (congrArg Cht.evt hcht :), rfl, rfl, rfl, rfl, hwait, hclear, fun hp => ?_⟩
  obtain ⟨hrole, hholds, hlease⟩ := startRole_single (s := ((chartered s c).writeHoldInit c).forceRws) hp
  rw [reviewRole_single (s := starting u ph ts) hactive hp]
  exact ⟨(congrArg Par.role hpar).trans hrole, (congrArg Par.holds hpar).trans hholds, (congrArg Par.lease hpar).trans hlease⟩

section
variable {s : State} {c : Charter} (hstage : s.cht.stage = .staged) (hnone : s.cht.active = none) (hstaged : s.cht.staged = some c)
include hstage hnone hstaged

/-- START of a Charter that is not derate-safe, on a derated device, only says DERATE (R35). -/
theorem chtStart_derate (hd : s.clk.derated = true) (hs : s.cht.stagedSafe = false) : s.chtStart = s.ignores 0x27 := by
  simp only [State.chtStart, hstage, hnone, hstaged, hd, hs, Bool.not_false, Bool.and_self, if_true]
  rfl

/-- START before release, or of a Charter without PAIR on a secondary, only says STATE (R409). -/
theorem chtStart_state (hd : s.clk.derated = false ∨ s.cht.stagedSafe = true)
    (h : s.bst.released = false ∨ (s.par.unit = true ∧ c.pair = false)) : s.chtStart = s.ignores 0x20 := by
  have hsafe : (s.clk.derated && !s.cht.stagedSafe) = false := by
    rcases hd with h | h <;> simp [h]
  have hrefused : (!s.bst.released || (s.par.unit && !c.pair)) = true := by simpa using h
  simp only [State.chtStart, hstage, hnone, hstaged, hsafe, hrefused, Bool.false_eq_true, if_false, if_true]
  rfl

/-- A START that is permitted: out of reduced service the stations are told and the device waits for t_S, at most 256 reduced
cycles on; otherwise the ports change to full rate and the Charter enters force while the Ledger is cleared (R409, R411). -/
theorem chtStart_starts (hd : s.clk.derated = false ∨ s.cht.stagedSafe = true) (hr : s.bst.released = true)
    (hu : s.par.unit = false ∨ c.pair = true) :
    s.chtStart = if s.reduced then
        (starting ((enacted s c).startStations c) .waitTs ((s.tim.now / 250000 + 256) * 250000)).reviewRole
      else
        let u := { enacted s c with ports := (enacted s c).ports.map Port.fullRate }.enterCharter c
        (starting u .clearing u.cht.tS).reviewRole := by
  have hsafe : (s.clk.derated && !s.cht.stagedSafe) = false := by
    rcases hd with h | h <;> simp [h]
  have hallowed : (!s.bst.released || (s.par.unit && !c.pair)) = false := by
    rcases hu with h | h <;> simp [hr, h]
  simp only [State.chtStart, hstage, hnone, hstaged, hsafe, hallowed, Bool.false_eq_true, if_false]
  rfl

/-- Either way the staged Charter is active (R87, R365, R409, R411). -/
theorem startedWith_chtStart (hd : s.clk.derated = false ∨ s.cht.stagedSafe = true) (hr : s.bst.released = true)
    (hu : s.par.unit = false ∨ c.pair = true) : StartedWith s c s.chtStart := by
  rw [chtStart_starts hstage hnone hstaged hd hr hu]
  by_cases hservice : s.cyc.service = 1
  · rw [if_pos ((reduced_iff s).mpr hservice)]
    exact startedWith_of_parts (startParts_startStations (enacted s c) c) (fun _ => ⟨rfl, rfl⟩) (absurd hservice)
  · rw [if_neg fun h => hservice ((reduced_iff s).mp h)]
    exact startedWith_of_parts (startParts_enterCharter { enacted s c with ports := (enacted s c).ports.map Port.fullRate } c)
      (fun h => absurd h hservice) (fun _ => rfl)

end

/-- START in any other state only says STATE (R74). -/
theorem chtStart_ignored {s : State} (h : s.cht.stage ≠ .staged ∨ s.cht.active.isSome = true ∨ s.cht.staged = none) :
    s.chtStart = s.ignores 0x20 := by
  unfold State.chtStart
  split
  next hstage hnone hstaged => simp [hstage, hnone, hstaged] at h
  next => rfl

/-- Settles O15: each answer of START by its equation; what a permitted one makes of the device by the parts that its steps leave. -/
theorem startMakesActive : Obligations.StartMakesActive := by
  unfold Obligations.StartMakesActive
  intro src s
  have hexec : exec (.start src) s = .next s.chtStart := rfl
  refine ⟨fun c hstage hnone hstaged => ⟨fun hd hr hu => ?_, fun hd hs => ?_, fun hd h => ?_⟩, fun h => ?_⟩
  · exact ⟨_, hexec, startedWith_chtStart hstage hnone hstaged hd hr hu⟩
  · rw [hexec, chtStart_derate hstage hnone hstaged hd hs]
  · rw [hexec, chtStart_state hstage hnone hstaged hd h]
  · rw [hexec, chtStart_ignored h]

end Sys2Proof.Laws
end

section
/-!
PROOFS. Device resets and what follows them (R31, R36, R48, R398, R399, R401, R424, R433).
-/
namespace Sys2Proof.Laws

open Sys2Proof Sys2Proof.Machine

/-- After a device reset an axis has its reset values but for the counts of its open Daybook record, and there are 256 (R398, R424). -/
theorem axis_deviceReset (s : State) (cause : Nat) (held : Bool) (a : Nat) :
    (s.deviceReset cause held).axis a = if a < 256 then Axis.afterReset s.dbk a else Axis.reset := by
  simp only [State.axis, State.deviceReset, List.getD_eq_getElem?_getD, List.getElem?_map]
  split <;> simp [*]

/-- A device reset keeps what it should of the state that it finds (R13, R398). -/
theorem deviceReset_resetTo (s : State) (cause : Nat) (held : Bool) : ResetTo s (s.deviceReset cause held) cause held := by
  refine ⟨rfl, rfl, rfl, rfl, rfl, ?_, fun a => ?_⟩
  · simp [State.deviceReset]
  · rw [axis_deviceReset]
    split <;> rfl

/-- A brown-out counts and takes TIM_PFAIL before it resets the device; without VBAK there are no seconds to take (R48, R433). -/
theorem exec_brownOut (s : State) :
    exec .brownOut s = .next (({ s with
      tim := { s.tim with pfail := if s.tim.vbak then s.tim.calSec else s.tim.pfail }
      dbk := { s.dbk with brownOuts := s.dbk.brownOuts + 1 } } : State).deviceReset 2 true) := by
  have hfail : (if s.tim.vbak then s.mapTim fun t => { t with pfail := t.calSec } else s)
      = { s with tim := { s.tim with pfail := if s.tim.vbak then s.tim.calSec else s.tim.pfail } } := by
    by_cases hv : s.tim.vbak = true
    · rw [if_pos hv, if_pos hv]
      rfl
    · rw [if_neg hv, if_neg hv]
  exact congrArg (fun u : State =>
    Host.Outcome.next ((u.mapDbk fun d => { d with brownOuts := d.brownOuts + 1 }).deviceReset 2 true)) hfail

/-- After a power-up or a brown-out an OUTAGE record is made as the device leaves reset (R424, R433). -/
theorem resetRelease_held {s : State} (h : s.bst.inReset = true) :
    exec .resetRelease s = .next { s with
      bst := { s.bst with inReset := false }
      dbk := if s.bst.cause = 0 ∨ s.bst.cause = 2 then
          { s.dbk with pending := s.dbk.pending ++ [{
            type := 5, stamp := s.stampNow, live := false
            content := twoWords s.tim.pfail.toNat ++ twoWords s.tim.calSec.toNat }] }
        else s.dbk } := by
  change execResetRelease s = _
  rw [← stamp_toNat]
  simp only [execResetRelease, h, if_true]
  split <;> rfl

/-- The root PLL locks: device time starts, the key RAM is zeroised, and wave 0 begins (R36, R399, R401). -/
theorem pllLock_locks {s : State} (hr : s.bst.inReset = false) (hl : s.clk.lock = false) (hh : s.clk.holdover = false) :
    exec .pllLock s = .next { s with
      freeCount := s.freeCount + 1
      clk := { s.clk with lock := true, refOffs := s.free.setWidth 16 }
      tim := { s.tim with now := 0, edges := 0 }
      srm := { s.srm with zeroised := true, keyRam := none }
      bst := { s.bst with running := true, wave := 0 } } := by
  have hfree : ¬ (s.bst.inReset || s.clk.lock || s.clk.holdover) = true := by rw [hr, hl, hh]; decide
  exact if_neg hfree

/-- Settles O10: each cause is a device reset of the state that it has first changed. -/
theorem deviceResets : Obligations.DeviceResets := by
  unfold Obligations.DeviceResets
  refine ⟨fun s => ⟨fun hl hh => ?_, ?_, fun sel => ?_, fun sel => ?_⟩, fun s => ⟨resetRelease_held, pllLock_locks⟩⟩
  · have hlost : (s.clk.lock && !s.clk.holdover) = true := by rw [hl, hh]; rfl
    exact ⟨_, if_pos hlost, deviceReset_resetTo s 3 false⟩
  · exact ⟨_, exec_brownOut s, deviceReset_resetTo _ 2 true⟩
  · exact ⟨_, rfl, deviceReset_resetTo _ 1 true⟩
  · exact ⟨_, rfl, deviceReset_resetTo _ 0 true⟩

end Sys2Proof.Laws
end

section
/-!
PROOFS. The rate of plant time, plant steps and the 1 µs tick (R51).
-/
namespace Sys2Proof.Laws

open Sys2Proof Sys2Proof.Machine

/-- A write of TIM_PLANT_RATE, by any source: the address is one of BAR0 and of a register that takes writes. -/
theorem registerWrite_plantRate (src : Source) (v : Word64) (s : State) :
    exec (.registerWrite src .w32 0x40020018 v) s = .next (s.mapTim fun t => { t with plantRate := plantRateSat (v.setWidth 32) }) := by
  change execRegisterWrite src .w32 0x40020018 v s = _
  have hbar : s.inBar 0x40020018 = true := by simp [State.inBar]
  have hplace : s.placeAt 0x40020018 = .block .tim 0x018 := by simp [State.placeAt, regBlock]
  simp [execRegisterWrite, hbar, State.busWrite, hplace, State.regWrite, State.writeBlock, State.writeTim]

/-- The TIMER events of a tick are raised towards the Teller (R263). -/
theorem timerEvents_frame (s : State) (us : Nat) : s.timerEvents us = { s with teller := (s.timerEvents us).teller } := by
  refine forEach_keeps (P := fun t : State => t = { s with teller := t.teller }) (fun p _ t ht => ?_) s rfl
  split
  · rw [raise_frame, ht]
  · exact ht

/-- The tick adds the plant step that waits (R51). -/
theorem addStep_eq (t : Tim) :
    t.addStep = { t with
      plantStep := none
      plant := t.plantStep.elim t.plant fun v => t.plant + BitVec.ofInt 96 (v.toInt * 2 ^ 32) } := by
  unfold Tim.addStep
  split
  next v h => rw [h]; rfl
  next h => rw [h, Option.elim_none, ← h]

/-- But for plant time and the Teller the tick changes nothing. -/
theorem tick1us_frame (s : State) : Runs .tick1us s fun t => t = { s with teller := t.teller, tim := s.tim.addStep } :=
  ⟨_, rfl, timerEvents_frame _ _⟩

/-- Settles O11: the write by its place in the register map, the tick by its frame. -/
theorem plantStepAndTick : Obligations.PlantStepAndTick := by
  unfold Obligations.PlantStepAndTick
  refine ⟨rfl, fun s => ⟨fun src v => registerWrite_plantRate src v s, fun _ _ => rfl, ?_⟩⟩
  obtain ⟨t, ht, hframe⟩ := tick1us_frame s
  refine ⟨t, ht, hframe.trans ?_⟩
  rw [addStep_eq]
  cases s.tim.plantStep <;> rfl

end Sys2Proof.Laws
end

section
/-!
PROOFS. The TCLK edge of a step on an empty queue (R36, R50, R74, R228, R252; logs 3, 41, 42, 66).
-/
namespace Sys2Proof.Laws

open Sys2Proof Sys2Proof.Machine

/-! ### The calendar within an edge (R44 to R46) -/

/-- What the crystal does not move: TIM but the calendar, its fractions and a set value that waits. -/
def offCalendar (t : Tim) : Tim :=
  { t with calSec := 0, calSub := 0, calFrac := 0, trimAcc := 0, carryDue := false, calSet := none, calOk := false }

theorem offCalendar_takeSet (t : Tim) : offCalendar t.takeSet = offCalendar t := by
  unfold Tim.takeSet
  split <;> rfl

theorem offCalendar_calTick (t : Tim) : offCalendar t.calTick = offCalendar t := by
  unfold Tim.calTick
  split
  · rfl
  · split <;> rfl

theorem offCalendar_calTicks (t : Tim) : offCalendar t.calTicks = offCalendar t := by
  unfold Tim.calTicks
  dsimp only
  split
  · exact (offCalendar_calTick _).trans (offCalendar_calTick _)
  · split
    · rfl
    · exact offCalendar_calTick _

theorem offCalendar_calEdge (t : Tim) : offCalendar t.calEdge = offCalendar t := by
  unfold Tim.calEdge
  split
  · exact offCalendar_takeSet t
  · exact offCalendar_calTicks t

theorem offCalendar_calNs (t : Tim) : offCalendar t.calNs = offCalendar t := by
  have hedge : ∀ f : Nat, offCalendar ({ t with calFrac := f } : Tim).calEdge = offCalendar t := fun f => offCalendar_calEdge _
  unfold Tim.calNs
  split
  · dsimp only
    split
    · exact hedge _
    · rfl
  · rfl

/-- The clocks of two states of TIM that differ in the calendar alone. -/
theorem clocks_of_offCalendar {t u : Tim} (h : offCalendar t = offCalendar u) :
    t.now = u.now ∧ t.edges = u.edges ∧ t.plant = u.plant ∧ t.plantRate = u.plantRate :=
  ⟨(congrArg Tim.now h :), (congrArg Tim.edges h :), (congrArg Tim.plant h :), (congrArg Tim.plantRate h :)⟩

/-! ### Device time and plant time (R36, R38, R50) -/

/-- The count of device time moves nothing but it and the slew. -/
theorem count_frame (t : Tim) (b : Bool) : t.count b = { t with now := (t.count b).now, slewAcc := (t.count b).slewAcc } := by
  unfold Tim.count
  dsimp only
  repeat' split
  all_goals rfl

/-- An edge of CCLK moves its phase only (R29). -/
theorem cclk_frame (t : Tim) (derated : Bool) : (t.cclk derated).1 = { t with cclkPhase := (t.cclk derated).1.cclkPhase } := by
  unfold Tim.cclk
  generalize t.cclkPhase + (if derated then 5 else 6) = phase
  dsimp only
  split <;> rfl

/-- An edge of the PLL counted in TIM, and whether it is one of CCLK too. -/
def pllEdge (t : Tim) (standby derated : Bool) : Tim × Bool :=
  ((({ t with edges := t.edges + 1 } : Tim).count standby).plantEdge).cclk derated

theorem pllEdge_clocks (t : Tim) (standby derated : Bool) :
    (pllEdge t standby derated).1.edges = t.edges + 1
      ∧ (standby = false → (pllEdge t standby derated).1.now = t.now + 1)
      ∧ (pllEdge t standby derated).1.plant = t.plant + BitVec.ofInt 96 (2 ^ 32 + t.plantRate.toInt) := by
  unfold pllEdge
  rw [cclk_frame, Tim.plantEdge, count_frame]
  exact ⟨rfl, fun h => by rw [h]; rfl, rfl⟩

/-- TIM after a TCLK edge with the PLL running. -/
def edgeTim (s : State) : Tim × Bool := pllEdge s.tim.calNs (s.par.role == .standby) s.clk.derated

/-- The edge is counted, device time advances and plant time takes its rate (R36, R50). -/
theorem edgeTim_clocks (s : State) :
    (edgeTim s).1.edges = s.tim.edges + 1 ∧ (s.par.role ≠ .standby → (edgeTim s).1.now = s.tim.now + 1)
      ∧ (edgeTim s).1.plant = s.tim.plant + BitVec.ofInt 96 (2 ^ 32 + s.tim.plantRate.toInt) := by
  obtain ⟨hnow, hedges, hplant, hrate⟩ := clocks_of_offCalendar (offCalendar_calNs s.tim)
  rw [← hnow, ← hedges, ← hplant, ← hrate]
  obtain ⟨he, hn, hp⟩ := pllEdge_clocks s.tim.calNs (s.par.role == .standby) s.clk.derated
  exact ⟨he, fun hr => hn (beq_false_of_ne hr), hp⟩

/-! ### Local compare units whose writes wait (R252) -/

/-- What the local compare units change: themselves, their BEHIND bits and the events raised. -/
def OnlyCompares (s t : State) : Prop :=
  t = { s with
    io := { s.io with lcmp := t.io.lcmp, lBehind := t.io.lBehind }, teller := { s.teller with raised := t.teller.raised } }

theorem OnlyCompares.trans {s t u : State} (h : OnlyCompares s t) (k : OnlyCompares t u) : OnlyCompares s u := by
  unfold OnlyCompares at *
  rw [k, h]

theorem OnlyCompares.others {s t : State} (h : OnlyCompares s t) : t.dbk = s.dbk ∧ t.glb = s.glb ∧ t.bst = s.bst := by
  unfold OnlyCompares at h
  rw [h]
  exact ⟨rfl, rfl, rfl⟩

theorem onlyCompares_lcmpBehind (s : State) (n : Nat) : OnlyCompares s (s.lcmpBehind n) := by
  unfold OnlyCompares State.lcmpBehind
  dsimp only
  split
  · rw [raise_frame]; rfl
  · rfl

theorem onlyCompares_lcmpCheck (s : State) (n : Nat) : OnlyCompares s (s.lcmpCheck n) := by
  unfold State.lcmpCheck
  dsimp only
  split
  · rfl
  · split
    · exact onlyCompares_lcmpBehind s n
    · rfl

/-- A write of a local unit takes effect (R251, R252). -/
theorem onlyCompares_lcmpSet (s : State) (n : Nat) (r : CmpReg) (v : Word) : OnlyCompares s (s.lcmpSet n r v) := by
  have hmap : ∀ f, OnlyCompares s (s.mapLcmp n f) := fun _ => rfl
  unfold State.lcmpSet
  split
  · rfl
  · cases r with
    | cfg =>
      dsimp only
      split
      · exact (hmap _).trans (onlyCompares_lcmpCheck _ n)
      · exact hmap _
    | val =>
      dsimp only
      split
      · exact hmap _
      · exact (hmap _).trans (onlyCompares_lcmpCheck _ n)
    | valHi => rfl
    | step => exact hmap _

/-- A TCLK edge at the local compare units leaves no write waiting; where none waited it changes nothing. -/
theorem cmpTick_frame (s : State) : OnlyCompares (s.mapIo fun io => { io with cmpWrites := [] }) s.cmpTick := by
  unfold State.cmpTick
  split
  next h =>
    unfold OnlyCompares
    rw [← List.isEmpty_iff.mp h]
    rfl
  next =>
    exact forEach_keeps (P := OnlyCompares (s.mapIo fun io => { io with cmpWrites := [] }))
      (fun e _ t ht => ht.trans (onlyCompares_lcmpSet t e.1 e.2.1 e.2.2)) _ rfl

theorem cmpTick_none {s : State} (h : s.io.cmpWrites = []) : s.cmpTick = s := if_pos (List.isEmpty_iff.mpr h)

/-! ### The edge -/

/-- The Charter block with the words of a LOAD copied (R74). -/
theorem copyStep_eq (s : State) :
    s.copyStep = { s with cht := { s.cht with stage := if s.cht.stage = .loading then .checking else s.cht.stage } } := by
  have hcht : (if s.cht.stage = .loading then { s.cht with stage := .checking } else s.cht)
      = { s.cht with stage := if s.cht.stage = .loading then .checking else s.cht.stage } := by
    by_cases h : s.cht.stage = .loading
    · rw [if_pos h, if_pos h]
    · rw [if_neg h, if_neg h]
  exact congrArg (fun t : Cht => ({ s with cht := t } : State)) hcht

/-- An edge of the PLL, before the local compare units and the Daybook's second. -/
def edged (s : State) : State :=
  { s.copyStep with
    tim := (edgeTim s).1
    lanes := if (edgeTim s).2 then s.lanes.map Lane.tick else s.lanes
    io := { s.io with step := s.io.step.map StepPair.tick }
    ptb := if (edgeTim s).1.edges % 2 = 0 then s.ptb.tick else s.ptb }

/-- A second of power-on time at every 10^9 edges (R424). -/
def dbkAfter (s : State) : Dbk :=
  if (edgeTim s).1.edges % 1000000000 = 0 then s.dbk.second s.glb.temp s.bst.released else s.dbk

/-- With the PLL locked or in holdover everything runs. -/
theorem tclk_runs {s : State} (h : (s.clk.lock || s.clk.holdover) = true) :
    s.tclk = { (edged s).cmpTick with dbk := dbkAfter s } := by
  obtain ⟨hdbk, hglb, hbst⟩ := (cmpTick_frame (edged s)).others
  refine Eq.trans (if_pos h) ?_
  change (if (edgeTim s).1.edges % 1000000000 = 0 then { (edged s).cmpTick with
    dbk := (edged s).cmpTick.dbk.second (edged s).cmpTick.glb.temp (edged s).cmpTick.bst.released } else (edged s).cmpTick) = _
  unfold dbkAfter
  split
  · rw [hdbk, hglb, hbst]
    rfl
  · exact congrArg (fun d : Dbk => ({ (edged s).cmpTick with dbk := d } : State)) hdbk

/-- With the PLL stopped nothing but the calendar runs. -/
theorem tclk_stopped {s : State} (h : (s.clk.lock || s.clk.holdover) = false) :
    s.tclk = { s.copyStep with tim := s.tim.calNs } := if_neg (by rw [h]; decide)

theorem step_idle {s : State} (h : s.pending = []) : step s = .next s.tclk := by
  rw [step, h]

/-- An edge of CCLK moves nothing of a lane but LNE_BUSY (R149). -/
theorem tick_busy (l : Lane) : ({ l.tick with busy := 0 } : Lane) = { l with busy := 0 } := by
  unfold Lane.tick
  split <;> rfl

/-- The Daybook's seconds move its count of power-on time and its temperature bins (R424). -/
theorem dbkAfter_frame (s : State) :
    dbkAfter s = { s.dbk with poh := (dbkAfter s).poh, tjHist := (dbkAfter s).tjHist } := by
  unfold dbkAfter
  split <;> rfl

theorem edged_busy (s : State) :
    (edged s).lanes.map (fun l => { l with busy := 0 }) = s.lanes.map fun l => { l with busy := 0 } := by
  unfold edged
  dsimp only
  split
  · rw [List.map_map]
    exact List.map_congr_left fun l _ => tick_busy l
  · rfl

/-- What an edge leaves before the Daybook's second: of the local pins and the Teller only the local compare units and their events
change with the writes that waited. -/
theorem cmpTick_edged (s : State) :
    (edged s).cmpTick = { s with
      cht := { s.cht with stage := if s.cht.stage = .loading then .checking else s.cht.stage }
      tim := (edgeTim s).1, lanes := (edged s).lanes, ptb := (edged s).ptb
      io := { s.io with
        step := s.io.step.map StepPair.tick, cmpWrites := []
        lcmp := (edged s).cmpTick.io.lcmp, lBehind := (edged s).cmpTick.io.lBehind }
      teller := { s.teller with raised := (edged s).cmpTick.teller.raised } } := by
  have hcmp := cmpTick_frame (edged s)
  unfold OnlyCompares at hcmp
  generalize (edged s).cmpTick = u at hcmp ⊢
  rw [hcmp, edged, copyStep_eq]
  rfl

/-- Settles O2: the edge with the PLL running by its frame, each clause by the field that it is about. -/
theorem stepIdleTicks : Obligations.StepIdleTicks := by
  unfold Obligations.StepIdleTicks
  intro s hidle copied
  rw [step_idle hidle]
  refine ⟨fun h => ⟨_, rfl, ?_⟩, fun h => ⟨_, rfl, ?_⟩⟩
  · rw [tclk_runs h]
    obtain ⟨hedges, hnow, hplant⟩ := edgeTim_clocks s
    have hu := cmpTick_edged s
    have hquiet : s.io.cmpWrites = [] → (edged s).cmpTick.teller = s.teller := fun hw => by rw [cmpTick_none (s := edged s) hw]; rfl
    generalize (edged s).cmpTick = u at hu hquiet ⊢
    have htim : u.tim = (edgeTim s).1 := by rw [hu]
    refine ⟨?_, ?_, ?_, ?_, ?_, ?_, ?_, dbkAfter_frame s, ?_, hquiet⟩
    · rw [hu]
    · exact (congrArg Tim.edges htim).trans hedges
    · exact fun hr => (congrArg Tim.now htim).trans (hnow hr)
    · exact (congrArg Tim.plant htim).trans hplant
    · rw [hu]
      exact edged_busy s
    · rw [hu]
    · rw [hu]
    · rw [hu]
  · obtain ⟨hnow, hedges, hplant, -⟩ := clocks_of_offCalendar (offCalendar_calNs s.tim)
    rw [tclk_stopped h, copyStep_eq]
    exact ⟨rfl, hnow, hedges, hplant⟩

end Sys2Proof.Laws
end

section
/-!
PROOFS. The reference of the root PLL, and the divisor change without a Charter (R30, R32, R34, R420, R429).
-/
namespace Sys2Proof.Laws

open Sys2Proof Sys2Proof.Machine

/-- A loss of the reference, also while the PLL relocks, puts it into holdover (R30). -/
theorem refLost_holdover {s : State} (h : (s.clk.lock || s.clk.relocking) = true) :
    exec .refLost s = .next (s.mapClk fun c =>
      { c with refLost := true, holdover := true, lock := false, relocking := false, evt := setBit c.evt 0 }) := if_pos h

/-- In holdover without a reference the limit of 10 ms sets its event, and the return of REFCLK begins the relocking (R30). -/
theorem holdover_without_reference {s : State} (hh : s.clk.holdover = true) (hl : s.clk.refLost = true) :
    exec .holdoverLimit s = .next (s.mapClk fun c => { c with evt := setBit c.evt 2 })
      ∧ exec .refclkReturn s = .next (s.mapClk fun c => { c with refLost := false, relocking := true }) := by
  have hboth : (s.clk.holdover && s.clk.refLost) = true := by rw [hh, hl]; rfl
  exact ⟨if_pos hboth, if_pos hboth⟩

/-- The PLL has relocked, with an offset measured anew (R30). -/
theorem refBack_relocked {s : State} (h : s.clk.relocking = true) :
    exec .refBack s = .next ((s.mapClk fun c =>
      { c with
        lock := true, holdover := false, refLost := false, relocking := false, evt := setBit c.evt 1
        refOffs := s.free.setWidth 16 }).drawn 1) := if_pos h

/-- A write of CLK_DERATE asks for a divisor change; TARGET 0 overrides the planner (R32, R429). -/
theorem derateWrite_eq (s : State) (v : Word) :
    s.derateWrite v = { s with
      clk := { s.clk with derate := v &&& 1, pending := some (bit v 0) }
      age := if s.age.planned = true ∧ bit v 0 = false then
          { s.age with overridden := true, planned := false, evt := setBit s.age.evt 7 } else s.age } := by
  by_cases h : s.age.planned = true ∧ bit v 0 = false
  · have hover : (s.age.planned && !bit v 0) = true := by rw [h.1, h.2]; rfl
    rw [if_pos h]
    exact if_pos hover
  · have hkeeps : ¬ (s.age.planned && !bit v 0) = true := by simpa using h
    rw [if_neg h]
    exact if_neg hkeeps

/-- A divisor change that the planner asked for is recorded in the Daybook (R420). -/
theorem derateChange_eq (s : State) (b : Bool) :
    s.derateChange b = { s with
      clk := { s.clk with derated := b, pending := none, evt := setBit s.clk.evt 3 }
      dbk := if s.age.planned then { s.dbk with derated := b } else s.dbk } := by
  unfold State.derateChange
  dsimp only
  split <;> rfl

/-- With no Charter active and no reduced service the change asked for is made at once (R34). -/
theorem derateIdleChange_idle {s : State} {b : Bool} (hp : s.clk.pending = some b) (ha : s.cht.active = none)
    (hs : s.cyc.service ≠ 1) : exec .derateIdleChange s = .next (s.derateChange b) := by
  change execDerateIdleChange s = _
  have hfull : s.reduced = false := beq_false_of_ne hs
  simp [execDerateIdleChange, hp, ha, hfull]

/-- Settles O9: each command by its own equation. -/
theorem referenceAndDerating : Obligations.ReferenceAndDerating := by
  unfold Obligations.ReferenceAndDerating
  refine ⟨fun s => ⟨refLost_holdover, holdover_without_reference, refBack_relocked⟩,
    fun s => ⟨fun src v => ?_, fun b hp ha hs => ?_⟩⟩
  · exact congrArg Host.Outcome.next (derateWrite_eq s v)
  · rw [derateIdleChange_idle hp ha hs, derateChange_eq]

end Sys2Proof.Laws
end

section
/-!
PROOFS. The Escrow as a standby receives it: its records, its end, and the renewal that opens it (R369, R372, R373, R378, R380,
R382).
-/
namespace Sys2Proof.Laws

open Sys2Proof Sys2Proof.Machine

/-! ### Runs of cells, units with their places, and delay lists -/

/-- Consecutive cells written are read back in their places. -/
theorem memRead_memWriteList {w : Nat} (m : Mem w) (a : Nat) (vs : List (BitVec w)) (hm : memWf m = true) {i : Nat}
    (hi : i < vs.length) : memRead (memWriteList m a vs) (a + i) = vs.getD i 0 := by
  induction vs generalizing m a i with
  | nil => exact absurd hi (Nat.not_lt_zero i)
  | cons v vs ih =>
    have hw := memWf_memWrite m a v hm
    cases i with
    | zero => exact (memRead_memWriteList_ne _ (a + 1) a vs hw (.inl a.lt_succ_self)).trans (memRead_memWrite_same m a v hm)
    | succ i => exact Nat.add_right_comm a 1 i ▸ ih (memWrite m a v) (a + 1) hw (Nat.lt_of_succ_lt_succ hi)

theorem setAt_eq_set {α : Type} (f : α → α) (d : α) :
    ∀ {l : List α} {i : Nat}, i < l.length → setAt l i f = l.set i (f (l.getD i d))
  | _ :: _, 0, _ => rfl
  | a :: _, _ + 1, h => congrArg (a :: ·) (setAt_eq_set f d (Nat.lt_of_succ_lt_succ h))

theorem length_map_indexed {α β : Type} (l : List α) (f : Nat × α → β) : ((indexed l).map f).length = l.length := by
  simp only [indexed, List.length_map, List.length_zip, List.length_range, Nat.min_self]

theorem getD_map_indexed {α β : Type} {l : List α} {i : Nat} (f : Nat × α → β) (d : α) (e : β) (h : i < l.length) :
    ((indexed l).map f).getD i e = f (i, l.getD i d) := by
  simp only [indexed, List.getD_eq_getElem?_getD, List.length_map, List.length_zip, List.length_range, Nat.min_self, h,
    getElem?_pos, List.getElem_map, List.getElem_zip, List.getElem_range, Option.getD_some]

theorem insertDelay_perm (e : Delay) (l : List Delay) : (insertDelay e l).Perm (e :: l) := by
  induction l with
  | nil => exact .refl _
  | cons d t ih =>
    rw [insertDelay]
    split
    · exact .refl _
    · exact (ih.cons d).trans (.swap e d t)

/-- A delay list in due order (R275). -/
def DueOrder (l : List Delay) : Prop := l.Pairwise fun x y => x.due ≤ y.due

theorem insertDelay_dueOrder (e : Delay) {l : List Delay} (h : DueOrder l) : DueOrder (insertDelay e l) := by
  induction l with
  | nil => exact List.pairwise_singleton _ _
  | cons d t ih =>
    obtain ⟨hd, ht⟩ := List.pairwise_cons.mp h
    rw [insertDelay]
    split
    next hlt =>
      have hle := Nat.le_of_lt hlt
      exact List.pairwise_cons.mpr ⟨List.forall_mem_cons.mpr ⟨hle, fun x hx => Nat.le_trans hle (hd x hx)⟩, h⟩
    next hle =>
      have hall : ∀ x ∈ e :: t, d.due ≤ x.due := List.forall_mem_cons.mpr ⟨Nat.le_of_not_lt hle, hd⟩
      exact List.pairwise_cons.mpr ⟨fun x hx => hall x ((insertDelay_perm e t).mem_iff.mp hx), ih ht⟩

/-- A delay list made of entries that come in any order. -/
def delayList (es : List Delay) : List Delay := es.foldl (fun l e => insertDelay e l) []

/-- Entries put one by one into a list in due order keep it so, and all of them are there. -/
theorem foldl_insertDelay (es : List Delay) : ∀ l : List Delay, DueOrder l →
    DueOrder (es.foldl (fun l e => insertDelay e l) l) ∧ (es.foldl (fun l e => insertDelay e l) l).Perm (es ++ l) := by
  induction es with
  | nil => exact fun l hl => ⟨hl, .refl l⟩
  | cons e es ih =>
    intro l hl
    obtain ⟨horder, hperm⟩ := ih _ (insertDelay_dueOrder e hl)
    exact ⟨horder, hperm.trans (((insertDelay_perm e l).append_left es).trans List.perm_middle)⟩

theorem delayList_dueOrder (es : List Delay) : DueOrder (delayList es) := (foldl_insertDelay es [] .nil).1

theorem delayList_perm (es : List Delay) : (delayList es).Perm es :=
  (foldl_insertDelay es [] .nil).2.trans (.of_eq es.append_nil)

/-! ### The records of an open Escrow (R380) -/

/-- A class that a standby mirrors is not that of the local I/O. -/
theorem ne_three_of_mirrored {c : Nat} (h : mirroredClass c = true) : c ≠ 3 := by
  rintro rfl
  exact absurd h (by decide)

/-- A unit that sends no Escrow keeps no list of what changed. -/
theorem dirty_of_ne_active {p : Par} (id : Nat) (h : p.role ≠ .active) : p.dirty id = p :=
  if_neg fun hd => h (beq_iff_eq.mp (Bool.and_eq_true_iff.mp hd).1)

/-- The entry of a delay list that a record makes (R380). -/
def delayOf (t : Teller) (e : DelayRec) : Delay :=
  { task := e.task, flag := e.flag, due := e.due, period := e.period
    timer := t.binds.any fun b => b.kind == 0x0A && b.task == e.task && b.bit == e.flag && b.index == e.period }

/-- The state in which n more records of an Escrow have come. -/
def rxCounted (s : State) (n : Nat) : State := { s with par := { s.par with rxCount := s.par.rxCount + n } }

/-- A change of the pair manager on a condition is one of its fields on that condition. -/
theorem mapPar_ite (s : State) (f : Par → Par) (c : Prop) [Decidable c] :
    (if c then s.mapPar f else s) = { s with par := if c then f s.par else s.par } := by
  split <;> rfl

section
variable {s : State} {k : Nat} (hrole : s.par.role = .standby) (hopen : s.par.rxK = some k)
include hrole

/-- On a standby no write joins an Escrow to be sent. -/
theorem dirty_rxCounted (id n : Nat) : (rxCounted s n).par.dirty id = (rxCounted s n).par :=
  dirty_of_ne_active id (by rw [rxCounted, hrole]; decide)

include hopen

/-- A record counts where a standby has an Escrow open. -/
theorem escRecord_open (n : Nat) (f : State → State) : escRecord s n f = f (rxCounted s n) :=
  if_pos (by rw [hrole, hopen]; rfl)

theorem escrowLine_open {a line : Nat} {ws : List Word} (hlo : 8 ≤ line) (hhi : line < 128) (ha : a < 256) (hlen : ws.length = 8) :
    exec (.escrowLine a line ws) s = .next { rxCounted s 1 with
      pages := memWriteList s.pages (1024 * a + 8 * line) ws } := by
  change execEscrowLine a line ws s = _
  have hkey : pageKey a (32 * line) = 1024 * a + 8 * line := by
    unfold pageKey
    omega
  have hall : ws.take 8 = ws := List.take_of_length_le (Nat.le_of_eq hlen)
  rw [execEscrowLine, escRecord_open hrole hopen, if_pos ⟨hlo, hhi, ha⟩, hall, State.setPageWords, hkey]
  rfl

theorem escrowTask_open (n st : Nat) (w : Word) :
    exec (.escrowTask n st w) s = .next ((rxCounted s 1).mapTeller fun t => t.mapTask n fun q =>
      { q with
        flags := w
        st := if st = 1 then .waiting else if st = 2 then .ready else if st = 3 then .service else if st = 4 then .suspended
          else q.st }) := by
  change execEscrowTask n st w s = _
  rw [execEscrowTask, escRecord_open hrole hopen]
  match st with
  | 0 | 1 | 2 | 3 | 4 | _ + 5 => rfl

theorem escrowDelay_open (n : Nat) (es : List DelayRec) :
    exec (.escrowDelay n es) s = .next ((rxCounted s es.length).mapTeller fun t =>
      { t with lists := setAt t.lists n fun _ => delayList (es.map (delayOf t)) }) :=
  congrArg Host.Outcome.next (escRecord_open hrole hopen _ _)

/-- A delta of a mirrored class is a write of requester 23, carried out at once. -/
theorem escrowDelta_mirrored {id : Nat} (e : Word64) (hm : mirroredClass (idClass id) = true) :
    exec (.escrowDelta id e) s = .next (((rxCounted s 1).transfer 23).writeEntry 23 id e) := by
  change execEscrowDelta id e s = _
  rw [execEscrowDelta, escRecord_open hrole hopen, if_pos hm]

theorem escrowDelta_stored {id : Nat} (e : Word64) (hm : mirroredClass (idClass id) = true) (hr : idReserved id = false) :
    exec (.escrowDelta id e) s = .next { rxCounted s 1 with
      arb := s.arb.atOnce s.fclk 23, ledger := ledgerPut s.ledger id e } := by
  rw [escrowDelta_mirrored hrole hopen e hm, writeEntry_plain hr (ne_three_of_mirrored hm)]
  exact congrArg (fun p => Host.Outcome.next { s with
    par := p, arb := s.arb.atOnce s.fclk 23, ledger := ledgerPut s.ledger id e }) (dirty_rxCounted hrole id 1)

theorem escrowDelta_reserved {id : Nat} (e : Word64) (hm : mirroredClass (idClass id) = true) (hr : idReserved id = true) :
    exec (.escrowDelta id e) s = .next { rxCounted s 1 with
      arb := s.arb.atOnce s.fclk 23, ledger := s.ledger.reservedAccess 23 id } := by
  rw [escrowDelta_mirrored hrole hopen e hm, State.writeEntry, if_pos hr]
  rfl

theorem escrowDelta_notMirrored {id : Nat} (e : Word64) (hm : mirroredClass (idClass id) = false) :
    exec (.escrowDelta id e) s = .next (rxCounted s 1) := by
  change execEscrowDelta id e s = _
  rw [execEscrowDelta, escRecord_open hrole hopen, hm]
  rfl

/-- The delays of a line go to its port, turned round; LEAD_SHORT is judged under the active Charter (R373, R382). -/
theorem escrowPort_open {p : Nat} (hs cs : List Word) (hp : p < s.ports.length) :
    exec (.escrowPort p hs cs) s = .next
      (let t : State := { rxCounted s 1 with
        ports := s.ports.set p ((s.port p).fromOther (hs.map fun w => w.toNat) (cs.map fun w => w.toNat)) }
      match s.cht.active with
      | some c => { t with par := if t.leadShortHere c p then { t.par with evt := setBit t.par.evt 11 } else t.par }
      | none => t) := by
  change execEscrowPort p hs cs s = _
  have hports := setAt_eq_set (fun q : Port => q.fromOther (hs.map fun w => w.toNat) (cs.map fun w => w.toNat)) Port.reset hp
  rw [execEscrowPort, escRecord_open hrole hopen, State.port, ← hports]
  simp only [mapPar_ite]
  rfl

/-- The end of an Escrow closes it; with the right count of records it is complete (R380). -/
theorem escrowEnd_open (n : Nat) :
    exec (.escrowEnd n) s = .next (
      let t := s.mapPar fun p => { p with rxK := none }
      if s.par.rxCount + 1 = n then t.escrowDone k else t) := by
  change execEscrowEnd n s = _
  simp only [execEscrowEnd, hopen, hrole, ne_eq, not_true_eq_false, if_false]

end

/-! ### An Escrow complete (R201, R373, R378) -/

/-- A CONTROL frame is of the pair manager alone. -/
theorem sendControl_eq (s : State) (code kt : Nat) : s.sendControl code kt = { s with par := s.par.control code kt } := rfl

/-- Every axis as an Escrow that is complete shows it. -/
def axesKept (s : State) : List Axis := (indexed s.axes).map fun e => s.keepLast e.1 e.2

theorem escrowDone_eq (s : State) (k : Nat) :
    s.escrowDone k = { s with
      axes := axesKept s
      par := if s.par.takeStep = .acked ∧ k + 1 = s.par.takeAt then
          { s.par with
            escrow := k, escrowValid := true, takeStep := .goSent, claimAt := some s.par.takeAt }.control 3 s.par.takeAt
        else { s.par with escrow := k, escrowValid := true } } := by
  unfold State.escrowDone
  dsimp only
  split
  · rw [sendControl_eq]
    rfl
  · rfl

/-- Where an axis stands among those of an Escrow complete. -/
theorem getD_axesKept {s : State} {a : Nat} (h : a < s.axes.length) :
    (axesKept s).getD a Axis.reset = s.keepLast a (s.axis a) := getD_map_indexed _ Axis.reset _ h

/-! ### The renewal that opens an Escrow (R369, R372, R380) -/

theorem standBy_of_ne_seeking {s : State} (h : s.par.role ≠ .seeking) : s.standBy = s := if_neg fun hs => h hs.1

/-- A transfer abandoned by a unit without the Warrant: its claim is withdrawn (R372, R378). -/
theorem abandon_claim {s : State} (b : Nat) (h : s.par.holds = false) :
    s.abandon b = { s with
      dbk := if s.par.claim ≠ 0 then s.dbk.withdraw s.par.claim s.par.epochBefore else s.dbk
      par := { s.par with takeStep := .none, claimAt := none, yields := false, claim := 0, evt := setBit s.par.evt b } } := by
  unfold State.abandon
  by_cases hc : s.par.claim = 0
  · simp only [State.mapPar, h, hc, Bool.not_false, bne_self_eq_false, Bool.and_false, Bool.false_eq_true, if_false, ne_eq,
      not_true_eq_false]
  · simp only [State.mapPar, State.mapDbk, h, hc, Bool.not_false, Bool.true_and, bne_iff_ne, ne_eq, not_false_eq_true, if_true,
      Bool.false_eq_true, if_false]

/-- What is kept of a renewal, by whether it has come by t(k + 1) (R372). -/
theorem heard_eq (s : State) (e : Nat) (k : Option Nat) (l : Nat) :
    s.heard e k l = { s.par with
      epoch := e, highest := max s.par.highest e, renew := if s.byNext k then max s.par.renew (k.getD 0) else s.par.renew
      heardAt := some s.tim.now, lease := l, leaseDue := none } := by
  cases k <;> rfl

/-- A renewal heard by a unit without a Warrant and without a claim: what it keeps, and the role it may enter (R365, R372). -/
theorem hear_unclaimed {s : State} {e : Nat} (k l : Option Nat) (hh : s.par.holds = false) (he : e ≠ 0) (hc : s.par.claimAt = none) :
    s.hear e k l = State.standBy { s with par := s.heard e k (l.getD (s.par.leaseDue.getD s.par.lease)) } := by
  simp only [State.hear, State.mapPar, Par.renewLease, heard_eq, hh, he, hc, Bool.false_or, beq_iff_eq, Option.isSome_none,
    Bool.and_false, Bool.false_and, Bool.false_eq_true, if_false]

/-- A renewal that has come by t(k + 1) to a unit with a claim still to be launched, GO not sent: the claim is abandoned (R372). -/
theorem hear_claimed {s : State} {e at1 : Nat} {k : Option Nat} (l : Option Nat) (hh : s.par.holds = false) (he : e ≠ 0)
    (hc : s.par.claimAt = some at1) (hgo : s.par.takeStep ≠ .goSent) (hon : s.byNext k = true) :
    s.hear e k l = State.standBy { s with
      dbk := if s.par.claim ≠ 0 then s.dbk.withdraw s.par.claim s.par.epochBefore else s.dbk
      par := { s.heard e k (l.getD (s.par.leaseDue.getD s.par.lease)) with
        takeStep := .none, claimAt := none, yields := false, claim := 0, evt := setBit s.par.evt 2 } } := by
  simp only [State.hear, State.mapPar, Par.renewLease, heard_eq, abandon_claim 2 hh, hh, he, hc, hgo, hon, Bool.false_or,
    beq_iff_eq, if_false, Option.isSome_some, Bool.and_self, Bool.true_and, bne_iff_ne, ne_eq, not_false_eq_true, if_true]

/-- An Escrow opens with a renewal that is heard (R372, R380). -/
theorem escrowBegin_opens {s : State} {e : Nat} (k : Nat) (he : s.heardEpoch ≤ e) (hh : s.par.holds = false) :
    exec (.escrowBegin k e) s = .next ((s.hear e (some k) none).mapPar fun p => { p with rxK := some k, rxCount := 1 }) :=
  congrArg Host.Outcome.next (if_neg (not_or.mpr ⟨Nat.not_lt.mpr he, Bool.eq_false_iff.mp hh⟩))

/-- None opens with an epoch below the highest heard, or at the holder (R369). -/
theorem escrowBegin_ignored {s : State} {e : Nat} (k : Nat) (h : e < s.heardEpoch ∨ s.par.holds = true) :
    exec (.escrowBegin k e) s = .next (s.mapPar fun p => { p with highest := max p.highest e }) :=
  congrArg Host.Outcome.next (if_pos h)

/-- Settles O50: each record by its equation in an open Escrow, the end by what it leaves of every axis, and the renewal that opens an
Escrow by what a unit without the Warrant keeps of it. -/
theorem escrowReceived : Obligations.EscrowReceived := by
  unfold Obligations.EscrowReceived
  refine ⟨fun s k hrole hopen => ⟨?_, ?_, ?_, ?_, ?_, ?_, ?_, ?_, ?_⟩, fun k e s => ⟨?_, ?_, fun h => escrowBegin_ignored k h⟩⟩
  · intro a line ws hlo hhi ha hlen hm
    refine ⟨_, escrowLine_open hrole hopen hlo hhi ha hlen, rfl, fun i hi => ?_, fun w hw => ?_⟩
    · exact memRead_memWriteList _ _ _ hm (hlen ▸ hi)
    · exact memRead_memWriteList_ne _ _ _ _ hm (hlen ▸ hw)
  · exact fun n st w => escrowTask_open hrole hopen n st w
  · intro n es hn
    have hlist := getD_setAt_same (fun _ => delayList (es.map (delayOf s.teller))) [] hn
    refine ⟨_, escrowDelay_open hrole hopen n es, rfl, ?_, ?_, fun i hi => getD_setAt_ne _ _ (Ne.symm hi)⟩
    · exact hlist ▸ delayList_dueOrder _
    · refine hlist ▸ ((delayList_perm _).map _).trans (.of_eq ?_)
      rw [List.map_map]
      rfl
  · intro id e hmir hr hm
    obtain ⟨hsame, hothers, hledger, -⟩ := wrote_ledgerPut (s := rxCounted s 1)
      (t := { rxCounted s 1 with arb := s.arb.atOnce s.fclk 23, ledger := ledgerPut s.ledger id e }) hm rfl
      (dirty_rxCounted hrole id 1).symm
    exact ⟨_, escrowDelta_stored hrole hopen e hmir hr, hsame, hothers,
      congrArg (fun l => { rxCounted s 1 with arb := s.arb.atOnce s.fclk 23, ledger := l }) hledger⟩
  · exact fun id e hmir hr => escrowDelta_reserved hrole hopen e hmir hr
  · exact fun id e hmir => escrowDelta_notMirrored hrole hopen e hmir
  · intro p hs cs hp ports
    refine ⟨fun hc => ?_, fun c hc => ?_⟩
    · rw [escrowPort_open hrole hopen hs cs hp, hc]
      rfl
    · rw [escrowPort_open hrole hopen hs cs hp, hc]
      rfl
  · refine ⟨_, (escrowEnd_open hrole hopen _).trans (congrArg _ ((if_pos rfl).trans (escrowDone_eq _ k))), rfl,
      length_map_indexed _ _, fun a ha => ?_⟩
    refine (getD_axesKept ha).trans ?_
    simp only [State.keepLast, beq_iff_eq]
  · exact fun n hn => (escrowEnd_open hrole hopen n).trans (congrArg _ (if_neg hn.symm))
  · intro he h0 hh hrole hc
    have hrenewed := (hear_unclaimed (some k) none hh h0 hc).trans (standBy_of_ne_seeking hrole)
    rw [escrowBegin_opens k he hh, hrenewed]
    rfl
  · intro at1 he h0 hh hrole hc hgo hon
    have hrenewed := (hear_claimed none hh h0 hc hgo hon).trans (standBy_of_ne_seeking hrole)
    refine ⟨_, escrowBegin_opens k he hh, ?_⟩
    rw [hrenewed]
    rfl

end Sys2Proof.Laws
end
